-- ==== Sys2Proof/Word.lean ====
section
/-! DEFINITION. The word types of the Arbojen AE-824, the numbers of its lanes, tracks, ports and
destinations (R1), and `Table`, the fixed-size table that every bank of like state is held in. -/

namespace Sys2Proof

/-- A byte of a command block, a response block or a tag block. -/
abbrev Byte := BitVec 8

/-- A 10-bit word of a lane word interface. -/
abbrev LaneWord := BitVec 10

/-- A 24-bit two's complement sample. -/
abbrev Sample := BitVec 24

/-- A position in a ring of 4096 samples (R59): its arithmetic is modulo 4096. -/
abbrev RingPos := BitVec 12

/-- Lane 0..7 (R1). -/
abbrev LaneId := Fin 8

/-- Group 0..7 of a feed (R1). -/
abbrev GroupId := Fin 8

/-- Track 0..23 of a feed (R1). -/
abbrev TrackId := Fin 24

/-- Serial audio port SAP0..SAP3 (R1). -/
abbrev SapId := Fin 4

/-- Control port CP0..CP2 (R1). -/
abbrev CpId := Fin 3

/-- Destination D0..D255 (R1). -/
abbrev DestId := Fin 256

/-- Source with a ring, S0..S255 (R1, R59). -/
abbrev RingId := Fin 256

/-- Claim item 0..263 (R1). -/
abbrev ItemId := Fin 264

/-- Tag record T0..T63 (R1). -/
abbrev TagId := Fin 64

/-- A table of `n` like pieces of state. -/
abbrev Table (α : Type) (n : Nat) := Vector α n

/-- The piece at index `i`. -/
def Table.look {α : Type} {n : Nat} (t : Table α n) (i : Fin n) : α := t[i.val]

/-- The table with the piece at index `i` replaced. -/
def Table.put {α : Type} {n : Nat} (t : Table α n) (i : Fin n) (x : α) : Table α n :=
  t.set i.val x

/-- The table whose piece at index `i` is `f i`. -/
def Table.gen {α : Type} {n : Nat} (f : Fin n → α) : Table α n := Vector.ofFn f

/-- The table that holds `x` everywhere. -/
def Table.fill {α : Type} (n : Nat) (x : α) : Table α n := Vector.replicate n x

@[simp] theorem Table.look_put_self {α : Type} {n : Nat} (t : Table α n) (i : Fin n) (x : α) :
    (t.put i x).look i = x := by
  simp [Table.look, Table.put]

@[simp] theorem Table.look_put_ne {α : Type} {n : Nat} (t : Table α n) {i j : Fin n} (x : α)
    (h : i ≠ j) : (t.put i x).look j = t.look j := by
  have h' : i.val ≠ j.val := fun e => h (Fin.ext e)
  simp [Table.look, Table.put, h']

theorem Table.look_put {α : Type} {n : Nat} (t : Table α n) (i j : Fin n) (x : α) :
    (t.put i x).look j = if i = j then x else t.look j := by
  by_cases h : i = j
  · subst h; simp
  · simp [h]

@[simp] theorem Table.look_gen {α : Type} {n : Nat} (f : Fin n → α) (i : Fin n) :
    (Table.gen f).look i = f i := by
  simp [Table.look, Table.gen]

@[simp] theorem Table.look_fill {α : Type} {n : Nat} (x : α) (i : Fin n) :
    (Table.fill n x).look i = x := by
  simp [Table.look, Table.fill]

/-- Two tables that hold the same piece at every index are equal. -/
theorem Table.ext_look {α : Type} {n : Nat} {t u : Table α n}
    (h : ∀ i, t.look i = u.look i) : t = u := by
  apply Vector.ext
  intro i hi
  exact h ⟨i, hi⟩

end Sys2Proof
end

