-- ==== Sys2Proof/Machine/Types.lean ====
section
/-! DEFINITION. The named values of the spec's tables: format classes (R2), lane states and park
modes (R3), presence (R26), tag references (R78), patch entries (R78), changes and batches (R113,
R114), tag records (R133), notices, result codes and responses (spec/09, spec/12), fault flags
(R156), scenes (R165). The codes that a bus partner sees are those of spec/12. -/

namespace Sys2Proof.Machine

/-! ## Lanes -/

/-- The six format classes (R2). -/
inductive FormatClass where
  | fa24 | fa25 | fa30 | fb50 | fb60 | fc25
  deriving DecidableEq, Repr

/-- S, the samples per track per frame (R2). The frame period is S word periods. -/
def FormatClass.samples : FormatClass → Nat
  | .fa24 => 2000 | .fa25 => 1920 | .fa30 => 1600 | .fb50 => 960 | .fb60 => 800 | .fc25 => 1920

/-- Lc, the cell lines per frame (R2). -/
def FormatClass.cellLines : FormatClass → Nat
  | .fa24 => 1100 | .fa25 => 1100 | .fa30 => 1100 | .fb50 => 740 | .fb60 => 740 | .fc25 => 620

/-- The room: groups allowed per cell line (R2, R46). -/
def FormatClass.room : FormatClass → Nat
  | .fa24 => 8 | .fa25 => 8 | .fa30 => 8 | .fb50 => 6 | .fb60 => 6 | .fc25 => 4

/-- The format class codes of R175; 0 is no class. -/
def classCode : Option FormatClass → Byte
  | none => 0
  | some .fa24 => 1 | some .fa25 => 2 | some .fa30 => 3
  | some .fb50 => 4 | some .fb60 => 5 | some .fc25 => 6

/-- The lane states (R3). -/
inductive LaneState where
  | off | seek | run | coast | parked
  deriving DecidableEq, Repr

/-- The lock detector state; the detected class is the class of `locked` (R3, R4). -/
inductive Detector where
  | unlocked
  | candidate (c : FormatClass)
  | locked (c : FormatClass)
  deriving DecidableEq, Repr

/-- The park modes (R3, R14). -/
inductive ParkMode where
  | hold | flush | latch
  deriving DecidableEq, Repr

/-- The park causes (R3). -/
inductive ParkCause where
  | command | coastExpiry | format
  deriving DecidableEq, Repr

/-- A lane plan: the emit set and the strip set, bit n for group n (R3, R23). -/
structure Plan where
  emit : BitVec 8
  strip : BitVec 8
  deriving DecidableEq, Repr

/-- A line of a feed as it stands on a lane's input or output: whether the line markers place it in the
cell region (R4, R27), the words of its blanking and those of its active picture (R44, R45). -/
structure FeedLine where
  cellRegion : Bool
  blanking : List LaneWord
  picture : List LaneWord
  deriving DecidableEq, Repr

/-- One Lane Timing Unit (R3). Times are in ticks of 1/768000 s (Config). -/
structure Lane where
  state : LaneState
  expected : Option FormatClass
  detector : Detector
  parkMode : ParkMode
  coastLimit : Nat
  coastCount : Nat
  parkCause : Option ParkCause
  relockSeen : Bool
  /-- A relock event was taken at the last frame start in HOLD or FLUSH, so that the next one can
  enter RUN (R15, R21). -/
  resumeArmed : Bool
  /-- The time of the lane's last frame start. -/
  frameStartAt : Nat
  /-- The time from which the end of the frame in progress is measured outside RUN (R6, R7). -/
  phaseAt : Nat
  /-- The period in force in the frame in progress, as the S of that period (R6, R30). -/
  frameSamples : Nat
  /-- The switch point of the frame in progress has not fallen yet (R8). -/
  switchPending : Bool
  /-- The take timer's work of that switch point has not been done yet (R120, R122). -/
  takePending : Bool
  plan : Plan
  pendingPlan : Option Plan
  /-- The time of the last input frame start since the reset (R4, R5). -/
  inputAt : Option Nat
  /-- The lines of the cell region counted in the input frame in progress (R4). -/
  inputLines : Nat
  /-- The line last put out (R44, R45). -/
  output : FeedLine
  deriving DecidableEq, Repr

/-! ## Cell Reader and Cell Writer -/

/-- The presence states of a group (R26, R33). -/
inductive Presence where
  | absent | arriving | present | lapsing
  deriving DecidableEq, Repr

/-- A tag block of 32 bytes (R36, R52). -/
abbrev TagBlock := Table Byte 32

/-- What the reader holds of one group (R26). -/
structure GroupRead where
  presence : Presence
  misses : Nat
  setCount : Nat
  cellMark : Bool
  deriving DecidableEq, Repr

/-- What the reader holds of one track (R26): an assembly of no byte is idle. -/
structure TrackRead where
  assembly : List Byte
  kept : Option TagBlock
  deriving DecidableEq, Repr

/-- A valid cell handed to the Cell Writer for the line in progress (R39, R40). -/
structure HandedCell where
  group : GroupId
  passThrough : Bool
  words : List LaneWord
  deriving DecidableEq, Repr

/-- One Cell Reader (R26). -/
structure Reader where
  groups : Table GroupRead 8
  surplus : Bool
  tracks : Table TrackRead 24
  /-- An input frame start has come at or after the entry to RUN (R27, R32, R57). -/
  parsing : Bool
  handed : List HandedCell
  deriving DecidableEq, Repr

/-- The crowding field of R43: NONE, or CROWDED from a cell line of the frame in progress or of the
frame before. -/
inductive Crowding where
  | none | thisFrame | lastFrame
  deriving DecidableEq, Repr

/-- What the writer holds of one group (R43). -/
structure GroupWrite where
  emitted : Nat
  reads : Nat
  deriving DecidableEq, Repr

/-- One Cell Writer (R43). -/
structure Writer where
  latched : Table TagBlock 24
  groups : Table GroupWrite 8
  linePos : Nat
  crowding : Crowding
  deriving DecidableEq, Repr

/-! ## Serial audio ports -/

/-- One serial audio port (R62). -/
structure Sap where
  /-- The word clock is PRESENT; LOST otherwise. -/
  present : Bool
  /-- The time of the last word-clock frame start, or of the reset (the lost watch). -/
  clockAt : Nat
  regain : Nat
  /-- The time at which the internal timer's next period falls while LOST. -/
  timerAt : Nat
  refLane : LaneId
  /-- A frame has been opened since the port became PRESENT (R63). -/
  frameOpen : Bool
  /-- The samples sent in the 16 slots of the frame in progress. -/
  output : Table Sample 16
  deriving DecidableEq, Repr

/-! ## Patch table -/

/-- A source as it is read: a ring, the tone or silence (R1, R60). -/
inductive Src where
  | ring (r : RingId)
  | tone
  | silence
  deriving DecidableEq, Repr

/-- A tag reference (R78). -/
inductive TagRef where
  | none
  | pass
  | record (n : TagId)
  deriving DecidableEq, Repr

/-- The fade part of a FADING entry (R78). -/
structure Fade where
  prev : Src
  prevIndex : RingPos
  length : Nat
  pos : Nat
  deriving DecidableEq, Repr

/-- The health of an entry (R78). -/
inductive Health where
  | good | suspect
  deriving DecidableEq, Repr

/-- One patch entry (R78). The three checked fields are held as stored, so that an upset (R79) can
leave them out of range: `tag` holds the tag reference code of R175. -/
structure Entry where
  source : BitVec 16
  tag : Byte
  counted : TagRef
  delay : BitVec 16
  readIndex : RingPos
  fade : Option Fade
  nudge : Option Int
  health : Health
  code : BitVec 16
  deriving DecidableEq, Repr

/-! ## Take Unit -/

/-- A change record (R113). -/
structure Change where
  dest : DestId
  source : Fin 258
  /-- 0 (CUT), 64, 256 or 1024 samples. -/
  fade : Nat
  tag : Option TagRef
  delay : Option Nat
  deriving DecidableEq, Repr

/-- A closed batch (R114). -/
structure Batch where
  owner : CpId
  closure : Byte
  delay : Nat
  changes : List Change
  deriving DecidableEq, Repr

/-- A take timer (R114, R120). -/
inductive TakeTimer where
  | idle
  | counting (count : Nat)
  deriving DecidableEq, Repr

/-- The Take Unit's state of one lane (R114): a staging batch of no change is absent. -/
structure TakeUnit where
  staging : Table (List Change) 3
  queue : List Batch
  closureCounter : Byte
  timer : TakeTimer
  holdCommand : Bool
  holdPark : Bool
  /-- The head was loaded by a CANCEL that met the application of the batch before it: no batch is
  applied at the switch point that has come (R123, log 39). The next frame ends the wait (R121). -/
  freshHead : Bool
  deriving DecidableEq, Repr

/-! ## Tag Pool -/

/-- The content of a written record (R133): the kind code of R175, the label, the user bytes and the
author. -/
structure TagContent where
  kind : Byte
  label : List Byte
  user : Table Byte 8
  author : Option CpId
  deriving DecidableEq, Repr

/-- A tag record (R133): free when it has no content. -/
structure TagRecord where
  content : Option TagContent
  count : Nat
  deriving DecidableEq, Repr

/-! ## Command Units -/

/-- The liveness states (R104). -/
inductive Liveness where
  | silent | live | late | lost
  deriving DecidableEq, Repr

/-- The seven notices, in the bit order of R175. -/
inductive Notice where
  | claimLost | withdrawn | applied | cancelled | lane | fault | restarted
  deriving DecidableEq, Repr

/-- The bit of a notice in a notice byte (R175). -/
def Notice.bit : Notice → Nat
  | .claimLost => 0 | .withdrawn => 1 | .applied => 2 | .cancelled => 3
  | .lane => 4 | .fault => 5 | .restarted => 6

/-- The result codes of R176. -/
inductive Result where
  | ok | pending | starting | noCommand | badBlock | badArg | notOwner | notSenior | state
  | heldElsewhere | full | empty | noTag | inUse | again | queued | storeBusy | guarded | saveFailed
  deriving DecidableEq, Repr

/-- The code of a result (R176). -/
def Result.code : Result → Byte
  | .ok => 0x00 | .pending => 0x01 | .starting => 0x02 | .noCommand => 0x03 | .badBlock => 0x04
  | .badArg => 0x05 | .notOwner => 0x06 | .notSenior => 0x07 | .state => 0x08
  | .heldElsewhere => 0x09 | .full => 0x0A | .empty => 0x0B | .noTag => 0x0C | .inUse => 0x0D
  | .again => 0x0E | .queued => 0x0F | .storeBusy => 0x10 | .guarded => 0x11 | .saveFailed => 0x12

/-- A response block before it is laid out in bytes (R174, R176): `payload` holds the bytes from
byte 3 on, and the bytes beyond it are zero. -/
structure Response where
  code : Byte
  tag : Byte
  result : Result
  overrun : Bool
  payload : List Byte
  deriving DecidableEq, Repr

/-- The kinds of transaction that a transaction byte selects (R145, R173). -/
inductive TransactionKind where
  | none | writeBlock | readResponse
  deriving DecidableEq, Repr

/-- A command slot (R146). -/
inductive Slot where
  | empty
  | executing (code tag : Byte)
  | answered (r : Response)
  deriving DecidableEq, Repr

/-- What the falling edge of chip select fixes (R145, R149). -/
structure Transaction where
  summary : Byte
  response : Response
  /-- The response is the waiting one of an ANSWERED slot. -/
  waiting : Bool
  deriving DecidableEq, Repr

/-- One Command Unit with the liveness of its port (R104, R146, R151, R153). -/
structure CtrlPort where
  slot : Slot
  overrunMark : Bool
  notices : BitVec 7
  noticeMask : BitVec 7
  faultMask : BitVec 6
  liveness : Liveness
  /-- The time at which the watch timer was started at 0 ms. -/
  watchAt : Nat
  transaction : Option Transaction
  /-- The bytes shifted out in the last transaction. -/
  shifted : List Byte
  deriving DecidableEq, Repr

/-! ## Fault Unit -/

/-- The six fault groups, in the bit order of R175. -/
inductive FaultGroup where
  | lane | carriage | audio | patch | control | store
  deriving DecidableEq, Repr

/-- The bit of a group in a group byte (R175). -/
def FaultGroup.bit : FaultGroup → Nat
  | .lane => 0 | .carriage => 1 | .audio => 2 | .patch => 3 | .control => 4 | .store => 5

/-- The 56 fault flags (R156). -/
inductive FaultFlag where
  | lockLost (l : LaneId)
  | formatChanged (l : LaneId)
  | cellErr (l : LaneId)
  | crowded (l : LaneId)
  | slip (l : LaneId)
  | portClockLost (p : SapId)
  | portLate (c : CpId)
  | entryCheck
  | portLost (c : CpId)
  | blockErr (c : CpId)
  | sceneLoadFail
  | sceneSaveFail
  deriving DecidableEq, Repr

/-! ## Scene Store -/

/-- The part of a patch entry that a scene holds (R165, R95). -/
structure ScenePatch where
  source : BitVec 16
  tag : Byte
  delay : BitVec 16
  deriving DecidableEq, Repr

/-- The part of a lane that a scene holds (R165, R24). -/
structure SceneLane where
  enabled : Bool
  expected : Option FormatClass
  plan : Plan
  parkMode : ParkMode
  coastLimit : Nat
  deriving DecidableEq, Repr

/-- A scene (R165). -/
structure Scene where
  patch : Table ScenePatch 256
  claims : Table (Option CpId) 264
  lanes : Table SceneLane 8
  refLanes : Table LaneId 4
  toneLevel : Int
  tags : Table (Option TagContent) 64
  lateMs : Nat
  lostSeconds : Nat
  lineMask : BitVec 6
  saveGuard : Bool
  deriving DecidableEq, Repr

/-- The content of the nonvolatile store (R165): nothing, an image with the 32-bit check written
with it, or the torn image that a save leaves until it completes. -/
inductive StoreContent where
  | nothing
  | image (scene : Scene) (check : BitVec 32)
  | torn
  deriving DecidableEq, Repr

/-- A save in progress: the store-busy state with what the save needs (R166, R167). -/
structure Save where
  caller : CpId
  snapshot : Scene
  startedAt : Nat
  deriving DecidableEq, Repr

/-- The outcome of the last load (R170), coded as R177 gives. -/
inductive LoadOutcome where
  | image | defaultNoImage | defaultCheckFailed
  deriving DecidableEq, Repr

/-- What the engine as a whole is doing (R150, R169). -/
inductive Phase where
  | unpowered | heldReset | starting | running
  deriving DecidableEq, Repr

end Sys2Proof.Machine
end

