-- ==== Sys2Proof/Config.lean ====
section
/-! DEFINITION. What is fixed for the engine: the time unit and the periods of the spec counted in
it, and the free values (opaque constants with no body) that the spec leaves open. -/

namespace Sys2Proof.Config

/-! ## Time

One tick is 1/768000 s, one sixteenth of a nominal word period (log 1). The frame period of a class
of S samples is S word periods, 16 × S ticks (R2), and its switch point falls S ticks after the
frame start (R8). -/

/-- Ticks of a nominal word period, 1/48000 s (R64). -/
def wordPeriod : Nat := 16

/-- Ticks of a millisecond. -/
def tickMs : Nat := 768

/-- Ticks between two scrub visits: 78.125 µs (R87). -/
def scrubPeriod : Nat := 60

/-- Ticks of the frame period whose S is `s` (R2, R30). -/
def framePeriod (s : Nat) : Nat := 16 * s

/-- Four nominal word periods: a port becomes LOST (R64). -/
def clockLoss : Nat := 64

/-- The limit of a save, 400 ms (R167). -/
def saveLimit : Nat := 400 * tickMs

/-- The limit of the store read of a start-up, 50 ms (R169). -/
def loadLimit : Nat := 50 * tickMs

/-! ## Limits -/

/-- The changes of a lane's pool (R115). -/
def poolLimit : Nat := 32

/-- The changes of a staging batch (R115). -/
def batchLimit : Nat := 8

/-- The closed batches of a take queue (R115). -/
def queueLimit : Nat := 8

/-! ## Free values -/

/-- DESIGN CHOICE, safe (log 6): of a frame of length `len` ticks that is a complete frame of both
FA24 and FA25 by R4, whether a detector that holds neither class takes it as FA24. -/
opaque overlapIsFa24 : (len : Nat) → Bool

/-- DESIGN CHOICE, safe (log 8): the 32-bit check that an image carries over its content (R165). -/
opaque sceneCheck : Machine.Scene → BitVec 32

/-- DESIGN CHOICE, safe (log 3): which of the events that are due together is taken first. -/
opaque choose : (choice : Nat) → Nat

/-- DESIGN CHOICE, safe (log 9): whether the tag latch of a frame start at time `now` is taken before
the presence evaluation of the same frame start (R52). -/
opaque latchFirst : (now : Nat) → Bool

/-- DESIGN CHOICE, safe (log 10): whether a port whose internal timer period falls at time `now`
reads its destinations before it writes its sources (R63, R64). -/
opaque readsFirst : (now : Nat) → Bool

/-! ## The check code -/

/-- R79: a change of any one of the three checked fields (source, tag reference code, delay target)
changes the code. -/
def Separates (f : BitVec 16 → BitVec 8 → BitVec 16 → BitVec 16) : Prop :=
  (∀ s s' t d, f s t d = f s' t d → s = s') ∧
  (∀ s t t' d, f s t d = f s t' d → t = t') ∧
  (∀ s t d d', f s t d = f s t d' → d = d')

/-- DESIGN CHOICE, safe (log 7): the fixed function of R79. It may be any function that separates;
where the free value names none, `checkCode` falls back on one, which no proof can tell. -/
opaque checkFunction : Option (Subtype Separates)

/-- The check code of R79, of a source, a tag reference code and a delay target. -/
def checkCode (s : BitVec 16) (t : BitVec 8) (d : BitVec 16) : BitVec 16 :=
  match checkFunction with
  | some f => f.val s t d
  | none => s ^^^ t.zeroExtend 16 ^^^ d

/-- The check code has the property of R79. -/
theorem checkCode_separates : Separates checkCode := by
  cases h : checkFunction with
  | some f =>
    have e : checkCode = f.val := by funext s t d; simp [checkCode, h]
    rw [e]; exact f.property
  | none =>
    have e : checkCode = fun s t d => s ^^^ t.zeroExtend 16 ^^^ d := by
      funext s t d; simp [checkCode, h]
    rw [e]
    refine ⟨fun s s' t d h => ?_, fun s t t' d h => ?_, fun s t d d' h => ?_⟩
    · simpa using h
    · have h1 : t.zeroExtend 16 = t'.zeroExtend 16 := by simpa using h
      have h2 := congrArg BitVec.toNat h1
      apply BitVec.eq_of_toNat_eq
      have b := t.isLt
      have b' := t'.isLt
      simp only [BitVec.truncate_eq_setWidth, BitVec.toNat_setWidth] at h2
      omega
    · simpa using h

end Sys2Proof.Config
end

