-- ==== Sys2Proof/Machine/ResetValues.lean ====
section
/-! DEFINITION. The value of every block at the reset of start-up (step 2 of R169), as the table of
each block gives it: R3, R26, R43, R59, R62, R78, R96, R104, R114, R133, R146, R151, R153, and the
default scene of R170. `now` is the time of the reset. -/

namespace Sys2Proof.Machine

/-- The tag reference code of NONE (R175). -/
def tagCodeNone : Byte := 0x40

/-- A lane at the reset (R3): OFF, its timer free-running at 40 ms from the reset (R24). -/
def laneAtReset (now : Nat) : Lane where
  state := .off
  expected := none
  detector := .unlocked
  parkMode := .hold
  coastLimit := 25
  coastCount := 0
  parkCause := none
  relockSeen := false
  resumeArmed := false
  frameStartAt := now
  phaseAt := now
  frameSamples := 1920
  switchPending := true
  takePending := true
  plan := ⟨0, 0⟩
  pendingPlan := none
  inputAt := none
  inputLines := 0
  output := ⟨false, [], []⟩

/-- A group of a Cell Reader at the reset (R26). -/
def groupReadAtReset : GroupRead := ⟨.absent, 0, 0, false⟩

/-- A Cell Reader at the reset (R26). -/
def readerAtReset : Reader where
  groups := Table.fill 8 groupReadAtReset
  surplus := false
  tracks := Table.fill 24 ⟨[], none⟩
  parsing := false
  handed := []

/-- 32 zero bytes (R43, R53). -/
def zeroBlock : TagBlock := Table.fill 32 0

/-- A Cell Writer at the reset (R43). -/
def writerAtReset : Writer where
  latched := Table.fill 24 zeroBlock
  groups := Table.fill 8 ⟨0, 0⟩
  linePos := 0
  crowding := .none

/-- Serial audio port `p` at the reset (R62). -/
def sapAtReset (now : Nat) (p : SapId) : Sap where
  present := true
  clockAt := now
  regain := 0
  timerAt := now
  refLane := p.castLE (by decide)
  frameOpen := false
  output := Table.fill 16 0

/-- An entry at the reset (R78): S257, NONE, 64 samples, GOOD and matching. -/
def entryAtReset : Entry where
  source := 257
  tag := tagCodeNone
  counted := .none
  delay := 64
  readIndex := 0
  fade := none
  nudge := none
  health := .good
  code := Config.checkCode 257 tagCodeNone 64

/-- The Take Unit's state of a lane at the reset (R114). -/
def takeAtReset : TakeUnit where
  staging := Table.fill 3 []
  queue := []
  closureCounter := 0
  timer := .idle
  holdCommand := false
  holdPark := false
  freshHead := false

/-- A control port at the reset (R146, R151, R153). R104 gives liveness and watch timer in the last step
of start-up alone; until then the model holds SILENT with the timer started at the reset (log 38). -/
def portAtReset (now : Nat) : CtrlPort where
  slot := .empty
  overrunMark := false
  notices := 0
  noticeMask := BitVec.allOnes 7
  faultMask := BitVec.allOnes 6
  liveness := .silent
  watchAt := now
  transaction := none
  shifted := []

/-- The lane settings of the default scene (R170). -/
def defaultSceneLane : SceneLane := ⟨false, none, ⟨0, 0⟩, .hold, 25⟩

/-- The default scene (R170). -/
def defaultScene : Scene where
  patch := Table.fill 256 ⟨257, tagCodeNone, 64⟩
  claims := Table.fill 264 none
  lanes := Table.fill 8 defaultSceneLane
  refLanes := Table.gen fun p => p.castLE (by decide)
  toneLevel := -20
  tags := Table.fill 64 none
  lateMs := 1000
  lostSeconds := 10
  lineMask := BitVec.allOnes 6
  saveGuard := false

end Sys2Proof.Machine
end

