-- ==== Sys2Proof/Syntax.lean ====
section
/-! DEFINITION. The commands of the engine, one constructor per row of spec/opcode_table.json, in the
table's order. The table gives the rows no bits and no fields; the operands are those that the rules
of each row speak of. A command of a control port carries the port, the command tag of its block and
the fields of its payload as the bytes that R175 gives them, whatever their values. -/

namespace Sys2Proof

open Machine

/-- What an upset changes in an entry's storage (R79): the stored field takes the given value. -/
inductive Upset where
  | source (v : BitVec 16)
  | tag (v : Byte)
  | delay (v : BitVec 16)
  | code (v : BitVec 16)
  deriving DecidableEq, Repr

/-- The commands. `cp` is the control port, `tag` the command tag of the block (R174). -/
inductive Instr where
  /-- Power-up; the straps are SEN1 (bit 1) and SEN0 (bit 0) as sampled (R97, R169). -/
  | powerUp (straps : BitVec 2)
  /-- RESET_N is driven low (R169). -/
  | resetNLow
  /-- RESET_N is released (R169). -/
  | resetNRelease (straps : BitVec 2)
  /-- The store read of a start-up completes (R169, R170). -/
  | sceneLoad
  /-- An input frame start marker of a lane (R4). -/
  | inputFrameStart (lane : LaneId)
  /-- The predicted input frame start of a lane is late (R5). -/
  | lateFrameStart (lane : LaneId)
  /-- The candidate of a lane lapses (R4). -/
  | candidateLapse (lane : LaneId)
  /-- The frame timer of a lane marks a frame on its own, outside RUN (R6, R8). -/
  | frameStart (lane : LaneId)
  /-- The coast expiry of a lane, taken before the rest of its frame start (R13). -/
  | coastExpiry (lane : LaneId)
  /-- The switch point of a lane (R8). -/
  | switchPoint (lane : LaneId)
  /-- The application of a lane's head batch, taken before the rest of its switch point (R122). -/
  | take (lane : LaneId)
  /-- A lead pair found in the blanking of a cell line, with the words from it to the end of the
  blanking (R27, R28). -/
  | soundCell (lane : LaneId) (words : List LaneWord)
  /-- A line of a lane's input has arrived whole (R44, R45). -/
  | cellLine (lane : LaneId) (line : FeedLine)
  /-- A word-clock frame start of a port, with the 16 samples received in the frame that ended;
  `readFirst` says whether the port reads its destinations before it writes its sources (R63). -/
  | wordClockFrameStart (port : SapId) (received : Table Sample 16) (readFirst : Bool)
  /-- The end of the fade of a destination (R74). -/
  | fadeEnd (dest : DestId)
  /-- Four word periods without a word-clock frame start (R64). -/
  | portClockLost (port : SapId)
  /-- A period of a LOST port's internal timer (R64); `readFirst` as above. -/
  | internalTimerPeriod (port : SapId) (readFirst : Bool)
  /-- The regain frame start of a LOST port (R65). -/
  | portRegain (port : SapId)
  /-- The scrub's next visit (R87). -/
  | scrubVisit
  /-- A LIVE port's watch timer reaches the late interval (R106). -/
  | portLate (cp : CpId)
  /-- A SILENT or LATE port's watch timer reaches the lost interval (R107). -/
  | portLost (cp : CpId)
  /-- The image write ends; `readBack` says whether every part read back as written (R167). -/
  | saveComplete (readBack : Bool)
  /-- 400 ms have passed with the image incomplete (R167). -/
  | saveTimeout
  /-- A transaction of no kind ends, with the bytes that the controller shifted in, the transaction byte
  first; none where chip select rises before that byte is complete (R145). -/
  | summaryPoll (cp : CpId) (bytes : List Byte)
  /-- A read transaction ends after `clocked` response bytes (R146, R149). -/
  | readResponse (cp : CpId) (clocked : Nat)
  /-- A write transaction ends whose block bytes fail the block check (R147). -/
  | badBlock (cp : CpId) (bytes : List Byte)
  /-- A write transaction ends while the slot is EXECUTING (R148). -/
  | overrun (cp : CpId) (bytes : List Byte)
  /-- A write transaction ends during start-up (R150). -/
  | starting (cp : CpId) (bytes : List Byte)
  /-- A block whose command code names no command (R147). -/
  | undefinedCommand (cp : CpId) (code tag : Byte)
  | keepalive (cp : CpId) (tag : Byte)
  | readStatus (cp : CpId) (tag : Byte)
  | clearNotices (cp : CpId) (tag : Byte) (notices : Byte)
  | setNoticeMask (cp : CpId) (tag : Byte) (noticeMask faultMask : Byte)
  | claim (cp : CpId) (tag : Byte) (first : BitVec 16) (count : Byte)
  | release (cp : CpId) (tag : Byte) (first : BitVec 16) (count : Byte)
  | seize (cp : CpId) (tag : Byte) (first : BitVec 16) (count : Byte)
  | readClaims (cp : CpId) (tag : Byte) (first : BitVec 16) (count : Byte)
  /-- The late interval in ms and the lost interval in s. -/
  | setWatch (cp : CpId) (tag : Byte) (late : BitVec 16) (lost : Byte)
  | laneEnable (cp : CpId) (tag : Byte) (lane : Byte)
  | laneDisable (cp : CpId) (tag : Byte) (lane : Byte)
  | lanePark (cp : CpId) (tag : Byte) (lane : Byte)
  | laneResume (cp : CpId) (tag : Byte) (lane : Byte)
  | setEmit (cp : CpId) (tag : Byte) (lane groups : Byte)
  | setStrip (cp : CpId) (tag : Byte) (lane groups : Byte)
  | setParkMode (cp : CpId) (tag : Byte) (lane mode : Byte)
  | setCoastLimit (cp : CpId) (tag : Byte) (lane frames : Byte)
  | readLane (cp : CpId) (tag : Byte) (lane part track : Byte)
  /-- The change record as R175 lays it out. -/
  | stage (cp : CpId) (tag : Byte) (dest source : BitVec 16) (fade tagRef : Byte)
      (delay : BitVec 16)
  | unstage (cp : CpId) (tag : Byte) (dest : BitVec 16)
  | close (cp : CpId) (tag : Byte) (lane delay : Byte)
  | cancel (cp : CpId) (tag : Byte) (lane position closure : Byte)
  | hold (cp : CpId) (tag : Byte) (lane : Byte)
  | run (cp : CpId) (tag : Byte) (lane : Byte)
  | readQueue (cp : CpId) (tag : Byte) (lane : Byte)
  | readEntry (cp : CpId) (tag : Byte) (dest : BitVec 16)
  /-- The amount is a signed byte of samples. -/
  | nudge (cp : CpId) (tag : Byte) (dest : BitVec 16) (amount : Byte)
  | checkTest (cp : CpId) (tag : Byte) (dest : BitVec 16)
  | readPort (cp : CpId) (tag : Byte) (port : Byte)
  | setPortRef (cp : CpId) (tag : Byte) (port lane : Byte)
  /-- The level is a signed byte of dBFS. -/
  | setTone (cp : CpId) (tag : Byte) (level : Byte)
  | writeTag (cp : CpId) (tag : Byte) (index kind length : Byte) (label : Table Byte 16)
      (user : Table Byte 8)
  | freeTag (cp : CpId) (tag : Byte) (index : Byte)
  | readTag (cp : CpId) (tag : Byte) (index : Byte)
  | readFaults (cp : CpId) (tag : Byte)
  /-- The 8 selection bytes: byte k is bits 8k+7..8k (R175). -/
  | clearFaults (cp : CpId) (tag : Byte) (selection : BitVec 64)
  | setLineMask (cp : CpId) (tag : Byte) (mask : Byte)
  | saveScene (cp : CpId) (tag : Byte)
  /-- 0 off, 1 on. -/
  | setGuard (cp : CpId) (tag : Byte) (value : Byte)
  /-- RESTART with mode FULL; the straps are those that the start-up samples (R97, R171). -/
  | restartFull (cp : CpId) (tag : Byte) (straps : BitVec 2)
  /-- RESTART with any other mode byte: 0 is RETAIN, the rest are refused (R171). -/
  | restartRetain (cp : CpId) (tag : Byte) (mode : Byte)
  /-- An upset in the storage of an entry (R79). -/
  | entryUpset (dest : DestId) (upset : Upset)
  /-- The supply fails (R167). -/
  | powerLoss
  /-- The falling edge of chip select (R145, R149). -/
  | chipSelectFall (cp : CpId)
  deriving DecidableEq, Repr

end Sys2Proof
end

