-- ==== Sys2Proof/Machine/State.lean ====
section
/-! DEFINITION. The state of the engine: every piece of state that the spec gives it, as plain data,
with the queue of waiting commands and the model's clock; and the state right after reset. -/

namespace Sys2Proof.Machine

/-- The engine never stops with a fault: the spec names no event that halts it. -/
inductive Fault where
  deriving DecidableEq, Repr

/-- Why a command has no meaning. -/
inductive Refusal where
  /-- Raised by an arm of `exec` whose command has no meaning yet; no arm does. Safe. -/
  | notModelled (mnemonic : String)
  deriving DecidableEq, Repr

/-- A sample of the Sample Store: its address, ring × 4096 + position, and the sample. -/
abbrev SampleCell := Nat × Sample

/-- The state of the engine, block by block. -/
structure State where
  /-- The commands waiting, first in, first out. -/
  pending : List Instr
  /-- The time in ticks of 1/768000 s (log 1). -/
  now : Nat
  /-- How many free choices between due events have been made (log 3). -/
  choices : Nat
  /-- What the engine as a whole is doing (R150, R169). -/
  phase : Phase
  /-- The RESET_N pin is low (R169). -/
  resetLow : Bool
  /-- The time of the reset of the last start-up (R169). -/
  resetAt : Nat
  /-- The senior port (R97). -/
  senior : Option CpId
  /-- The Lane Timing Units (R3). -/
  lanes : Table Lane 8
  /-- The Cell Readers (R26). -/
  readers : Table Reader 8
  /-- The Cell Writers (R43). -/
  writers : Table Writer 8
  /-- The rings of the Sample Store, sparse in canonical form (R59). -/
  mem : List SampleCell
  /-- The write indices of S0..S255 (R59). -/
  writeIndex : Table RingPos 256
  /-- The tone level in dBFS (R61). -/
  toneLevel : Int
  /-- The serial audio ports (R62). -/
  saps : Table Sap 4
  /-- The patch table (R78). -/
  entries : Table Entry 256
  /-- The scrub position (R87). -/
  scrubPos : DestId
  /-- The time of the next scrub visit (R87). -/
  scrubAt : Nat
  /-- The claim table (R96). -/
  holders : Table (Option CpId) 264
  /-- The late interval in ms (R104). -/
  lateMs : Nat
  /-- The lost interval in s (R104). -/
  lostSeconds : Nat
  /-- The staging batches, take queues and take timers, per lane (R114). -/
  takes : Table TakeUnit 8
  /-- The Tag Pool (R133). -/
  tags : Table TagRecord 64
  /-- The control ports: slots, notices, masks and liveness (R104, R146, R151, R153). -/
  ports : Table CtrlPort 3
  /-- The 56 fault flags: bit b of vector byte k of R175 is bit 8k+b (R156). -/
  flags : BitVec 56
  /-- The first-suspect record (R90). -/
  firstSuspect : Option DestId
  /-- The line mask: a set bit leaves the group unmasked (R161). -/
  lineMask : BitVec 6
  /-- The nonvolatile store (R165). -/
  store : StoreContent
  /-- The save in progress, if the store is busy (R165, R166). -/
  saving : Option Save
  /-- The guard (R168). -/
  saveGuard : Bool
  /-- The outcome of the last load (R170). -/
  loadOutcome : LoadOutcome
  deriving DecidableEq, Repr

/-- Every block at its reset value at time `now` (step 2 of R169), with the RESET_N level and the
senior port given and the store's content kept. The queue and the choice counter are the model's own and are given. -/
def State.blockReset (pending : List Instr) (now choices : Nat) (phase : Phase)
    (resetLow : Bool) (senior : Option CpId) (store : StoreContent) : State where
  pending := pending
  now := now
  choices := choices
  phase := phase
  resetLow := resetLow
  resetAt := now
  senior := senior
  lanes := Table.fill 8 (laneAtReset now)
  readers := Table.fill 8 readerAtReset
  writers := Table.fill 8 writerAtReset
  mem := []
  writeIndex := Table.fill 256 0
  toneLevel := -20
  saps := Table.gen (sapAtReset now)
  entries := Table.fill 256 entryAtReset
  scrubPos := 0
  scrubAt := now
  holders := Table.fill 264 none
  lateMs := 1000
  lostSeconds := 10
  takes := Table.fill 8 takeAtReset
  tags := Table.fill 64 ⟨none, 0⟩
  ports := Table.fill 3 (portAtReset now)
  flags := 0
  firstSuspect := none
  lineMask := BitVec.allOnes 6
  store := store
  saving := none
  saveGuard := false
  loadOutcome := .defaultNoImage

/-- The engine right after reset: step 2 of a start-up at power-up, RESET_N high, the straps sampled
as 00 and the store holding nothing (DESIGN CHOICE, log 4 and log 5). The store read has not completed. -/
def State.reset : State := State.blockReset [] 0 0 .starting false none .nothing

end Sys2Proof.Machine
end

