-- ==== Sys2Proof/Machine/Operands.lean ====
section
/-! DEFINITION. The operand fields of a command block and the codes of a response block (R174, R175,
R176, R177): byte order, signed bytes, ranges, and the codes of tag references, holders, fades and
flags; and the guarded words of a sound cell (R178). -/

namespace Sys2Proof.Machine

/-! ## Bytes -/

/-- The two bytes of a field, most significant first (spec/12). -/
def bytesOf16 (v : BitVec 16) : List Byte := [v.extractLsb' 8 8, v.extractLsb' 0 8]

/-- The field of two bytes, most significant first (spec/12). -/
def word16 (hi lo : Byte) : BitVec 16 := hi ++ lo

/-- A number as the two bytes of a field. -/
def numBytes (n : Nat) : List Byte := bytesOf16 (BitVec.ofNat 16 n)

/-- A flag as a byte. -/
def boolByte (b : Bool) : Byte := if b then 1 else 0

/-- `n` bytes of the list, filled up with zeros. -/
def padBytes (n : Nat) (l : List Byte) : List Byte := (l ++ List.replicate n 0).take n

/-- The sum of bytes, each unsigned (R55, R147). -/
def byteSum (l : List Byte) : Nat := l.foldl (fun n b => n + b.toNat) 0

/-! ## Ranges -/

/-- A number as an index below `n`, if it is one. -/
def asFin (n k : Nat) : Option (Fin n) := if h : k < n then some ⟨k, h⟩ else none

/-- The lane a byte names (R20). -/
def laneField (b : Byte) : Option LaneId := asFin 8 b.toNat

/-- The destination a field names (R80). -/
def destField (v : BitVec 16) : Option DestId := asFin 256 v.toNat

/-- The serial audio port a byte names (R66). -/
def sapField (b : Byte) : Option SapId := asFin 4 b.toNat

/-- The tag record a byte names (R135). -/
def tagField (b : Byte) : Option TagId := asFin 64 b.toNat

/-- The claim item of a destination (R1). -/
def destItem (d : DestId) : ItemId := d.castLE (by decide)

/-- The lane control item Ln, 256 + n (R1). -/
def laneItem (l : LaneId) : ItemId := ⟨256 + l.val, by omega⟩

/-- The destination of a claim item, if it is one (R1). -/
def itemDest (i : ItemId) : Option DestId := asFin 256 i.val

/-- Whether a range of items is in bounds (R98, R103): 1..most items within 0..263. -/
def rangeOk (most : Nat) (first : BitVec 16) (count : Byte) : Bool :=
  decide (1 ≤ count.toNat) && decide (count.toNat ≤ most) && decide (first.toNat + count.toNat ≤ 264)

/-- The items of a range, in item order. -/
def rangeItems (first : BitVec 16) (count : Byte) : List ItemId :=
  (List.range count.toNat).filterMap fun k => asFin 264 (first.toNat + k)

/-! ## Codes -/

/-- The tag reference of a stored code (R175, R79): none where the code names no reference. -/
def tagRefOfCode (b : Byte) : Option TagRef :=
  if b = 0x40 then some .none
  else if b = 0x41 then some .pass
  else (tagField b).map .record

/-- The code of a tag reference (R175). -/
def tagRefCode : TagRef → Byte
  | .none => 0x40
  | .pass => 0x41
  | .record n => BitVec.ofNat 8 n.val

/-- The tag field of a change record (R175): FFh is absent. The outer `none` is a code the table does
not list. -/
def changeTagField (b : Byte) : Option (Option TagRef) :=
  if b = 0xFF then some none else (tagRefOfCode b).map some

/-- The delay field of a change record (R175): 0 is absent. -/
def changeDelayField (v : BitVec 16) : Option (Option Nat) :=
  if v = 0 then some none
  else if 16 ≤ v.toNat ∧ v.toNat ≤ 2048 then some (some v.toNat) else none

/-- The fade length of a code (R175). -/
def fadeField (b : Byte) : Option Nat :=
  if b = 0 then some 0 else if b = 1 then some 64 else if b = 2 then some 256
  else if b = 3 then some 1024 else none

/-- The code of a fade length (R175). -/
def fadeCode (n : Nat) : Byte :=
  if n = 64 then 1 else if n = 256 then 2 else if n = 1024 then 3 else 0

/-- The park mode of a code (R175). -/
def parkModeField (b : Byte) : Option ParkMode :=
  if b = 0 then some .hold else if b = 1 then some .flush else if b = 2 then some .latch else none

/-- The code of a park mode (R175). -/
def parkModeCode : ParkMode → Byte
  | .hold => 0 | .flush => 1 | .latch => 2

/-- The code of a park cause (R177). -/
def parkCauseCode : Option ParkCause → Byte
  | none => 0 | some .command => 1 | some .coastExpiry => 2 | some .format => 3

/-- The code of a lane state (R177). -/
def laneStateCode : LaneState → Byte
  | .off => 0 | .seek => 1 | .run => 2 | .coast => 3 | .parked => 4

/-- The code of a detector state (R177). -/
def detectorCode : Detector → Byte
  | .unlocked => 0 | .candidate _ => 1 | .locked _ => 2

/-- The class that READ LANE shows with the detector state (R22). -/
def Detector.shown : Detector → Option FormatClass
  | .unlocked => none | .candidate c => some c | .locked c => some c

/-- The code of a presence state (R177). -/
def presenceCode : Presence → Byte
  | .absent => 0 | .arriving => 1 | .present => 2 | .lapsing => 3

/-- The code of a holder, an author or the senior port (R175). -/
def cpCode : Option CpId → Byte
  | none => 0 | some c => BitVec.ofNat 8 (c.val + 1)

/-- The code of a liveness state (R177). -/
def livenessCode : Liveness → Byte
  | .silent => 0 | .live => 1 | .late => 2 | .lost => 3

/-- The code of a load outcome (R177). -/
def loadOutcomeCode : LoadOutcome → Byte
  | .image => 0 | .defaultNoImage => 1 | .defaultCheckFailed => 2

/-- The code of a slot state in the summary byte (R173). -/
def slotCode : Slot → Byte
  | .empty => 0 | .executing _ _ => 1 | .answered _ => 2

/-! ## Sources -/

/-- The source of a number; a number above 257 is used as S257 (R1, R79). -/
def Src.ofNumber (n : Nat) : Src :=
  if h : n < 256 then .ring ⟨n, h⟩ else if n = 256 then .tone else .silence

/-- The number of a source (R1). -/
def Src.number : Src → Nat
  | .ring r => r.val
  | .tone => 256
  | .silence => 257

/-- The ring of a lane source (R1). -/
def laneRing (l : LaneId) (t : TrackId) : RingId := ⟨l.val * 24 + t.val, by omega⟩

/-- The ring of a port source (R1). -/
def sapRing (p : SapId) (k : Fin 16) : RingId := ⟨192 + 16 * p.val + k.val, by omega⟩

/-- The destination on a lane's output (R1). -/
def laneDest (l : LaneId) (t : TrackId) : DestId := ⟨l.val * 24 + t.val, by omega⟩

/-- The destination of a port's output slot (R1). -/
def sapDest (p : SapId) (k : Fin 16) : DestId := ⟨192 + 16 * p.val + k.val, by omega⟩

/-- The lane and track of a lane source or lane destination number (R1). -/
def laneTrackOf (n : Fin 256) : Option (LaneId × TrackId) :=
  if h : n.val < 192 then
    some (⟨n.val / 24, by omega⟩, ⟨n.val % 24, by omega⟩)
  else none

/-- The port of a port source or port destination number (R1). -/
def sapOf (n : Fin 256) : Option SapId :=
  if _h : 192 ≤ n.val then some ⟨(n.val - 192) / 16, by omega⟩ else none

/-- The group of a track: t div 3 (R1). -/
def groupOf (t : TrackId) : GroupId := ⟨t.val / 3, by omega⟩

/-- Track j of group g: 3g + j (R1). -/
def trackOf (g : GroupId) (j : Fin 3) : TrackId := ⟨3 * g.val + j.val, by omega⟩

/-! ## Guarded words (R178) -/

/-- The value of a cell word: bits 7..0. -/
def wordValue (w : LaneWord) : Byte := w.extractLsb' 0 8

/-- Whether a byte holds an odd number of ones. -/
def oddOnes (b : Byte) : Bool :=
  (List.range 8).foldl (fun p i => p ^^ b.getLsbD i) false

/-- The word that carries a value: bit 8 is 1 for an odd number of ones, bit 9 its complement. -/
def guarded (b : Byte) : LaneWord := (if oddOnes b then 0b01#2 else 0b10#2) ++ b

/-- A word whose guard bits agree with its value. -/
def wellFormedWord (w : LaneWord) : Bool := w == guarded (wordValue w)

/-- The check of a cell: the sum of its words from the kind word on, modulo 1023 (R28, R51). -/
def cellCheck (ws : List LaneWord) : LaneWord :=
  BitVec.ofNat 10 (ws.foldl (fun n w => n + w.toNat) 0 % 1023)

/-- The first word of the lead pair. -/
def leadFirst : LaneWord := 0x3C3

/-- The second word of the lead pair. -/
def leadSecond : LaneWord := 0x03C

/-- The value of a sound cell's kind word. -/
def soundKind : Byte := 0x5A

/-- The fill word of R45. -/
def fillWord : LaneWord := 0x300

/-- The three words of a sample, most significant byte first (R178). -/
def sampleWords (x : Sample) : List LaneWord :=
  [guarded (x.extractLsb' 16 8), guarded (x.extractLsb' 8 8), guarded (x.extractLsb' 0 8)]

/-- The sample of three values (R178). -/
def sampleOf (a b c : Byte) : Sample := a ++ b ++ c

/-! ## Responses (R174, R176) -/

/-- Byte 39 that makes the 39 bytes before it sum with it to FFh modulo 256 (R174). -/
def checksumByte (l : List Byte) : Byte := BitVec.ofNat 8 (255 - byteSum l % 256)

/-- The 40 bytes of a response block (R174, R176). -/
def Response.bytes (r : Response) : List Byte :=
  let body := [r.code, r.tag, r.result.code ||| (if r.overrun then 0x80 else 0)] ++
    padBytes 36 r.payload
  body ++ [checksumByte body]

end Sys2Proof.Machine
end

