-- ==== Sys2Proof/Machine/Ops.lean ====
section
/-! DEFINITION. The shared operations over the state: updating one unit of a bank, the Sample Store's
rings (R59), the sources of the entries (R35, R60, R69), timing lanes (R66), and the reference counts
of the Tag Pool (R140). -/

namespace Sys2Proof.Machine

/-! ## One unit of a bank -/

/-- Change the Lane Timing Unit of lane `l`. -/
def modLane (l : LaneId) (f : Lane → Lane) (s : State) : State :=
  { s with lanes := s.lanes.put l (f (s.lanes.look l)) }

/-- Change the Cell Reader of lane `l`. -/
def modReader (l : LaneId) (f : Reader → Reader) (s : State) : State :=
  { s with readers := s.readers.put l (f (s.readers.look l)) }

/-- Change the Cell Writer of lane `l`. -/
def modWriter (l : LaneId) (f : Writer → Writer) (s : State) : State :=
  { s with writers := s.writers.put l (f (s.writers.look l)) }

/-- Change serial audio port `p`. -/
def modSap (p : SapId) (f : Sap → Sap) (s : State) : State :=
  { s with saps := s.saps.put p (f (s.saps.look p)) }

/-- Change the entry of destination `d`. -/
def modEntry (d : DestId) (f : Entry → Entry) (s : State) : State :=
  { s with entries := s.entries.put d (f (s.entries.look d)) }

/-- Change the Take Unit's state of lane `l`. -/
def modTake (l : LaneId) (f : TakeUnit → TakeUnit) (s : State) : State :=
  { s with takes := s.takes.put l (f (s.takes.look l)) }

/-- Change tag record `n`. -/
def modTag (n : TagId) (f : TagRecord → TagRecord) (s : State) : State :=
  { s with tags := s.tags.put n (f (s.tags.look n)) }

/-- Change control port `c`. -/
def modPort (c : CpId) (f : CtrlPort → CtrlPort) (s : State) : State :=
  { s with ports := s.ports.put c (f (s.ports.look c)) }

/-- Give claim item `i` a holder, or free it. -/
def setHolder (i : ItemId) (h : Option CpId) (s : State) : State :=
  { s with holders := s.holders.put i h }

/-! ## The Sample Store (R59) -/

/-- The sample at address `a`: an address that is not listed holds 0, as every sample does at
start-up (R59). -/
def storeRead : List SampleCell → Nat → Sample
  | [], _ => 0
  | (k, v) :: t, a => if k = a then v else storeRead t a

/-- Put the sample `v` at address `a`, keeping the canonical form: addresses rise, no zero sample is
listed. -/
def storeWrite : List SampleCell → Nat → Sample → List SampleCell
  | [], a, v => if v = 0 then [] else [(a, v)]
  | (k, w) :: t, a, v =>
    if a < k then (if v = 0 then (k, w) :: t else (a, v) :: (k, w) :: t)
    else if a = k then (if v = 0 then t else (a, v) :: t)
    else (k, w) :: storeWrite t a v

/-- The canonical form of the Sample Store. -/
abbrev SampleStore.wf (m : List SampleCell) : Prop :=
  m.Pairwise (fun x y => x.1 < y.1) ∧ ∀ c ∈ m, c.2 ≠ 0

/-- The address of position `i` of ring `r`. -/
def ringAddr (r : RingId) (i : RingPos) : Nat := r.val * 4096 + i.toNat

/-- Whether address `a` lies among the `n` positions of ring `r` from position `i` on, in the order
of writing (modulo 4096). -/
def inRingSpan (r : RingId) (i : RingPos) (n : Nat) (a : Nat) : Bool :=
  decide (a / 4096 = r.val) && decide ((BitVec.ofNat 12 a - i).toNat < n)

/-- Write one sample into a source: at its write index, which then advances by 1 (R59). -/
def writeSample (r : RingId) (x : Sample) (s : State) : State :=
  { s with
    mem := storeWrite s.mem (ringAddr r (s.writeIndex.look r)) x
    writeIndex := s.writeIndex.put r (s.writeIndex.look r + 1) }

/-- Write `n` zero samples into a source as one event (R31, R59). -/
def padSource (r : RingId) (n : Nat) (s : State) : State :=
  { s with
    mem := s.mem.filter fun c => !inRingSpan r (s.writeIndex.look r) n c.1
    writeIndex := s.writeIndex.put r (s.writeIndex.look r + BitVec.ofNat 12 n) }

/-- The sample at position `i` of ring `r`. -/
def ringSample (s : State) (r : RingId) (i : RingPos) : Sample := storeRead s.mem (ringAddr r i)

/-! ## Sources and entries -/

/-- The presence state of a track's group (R33). -/
def trackPresence (s : State) (l : LaneId) (t : TrackId) : Presence :=
  ((s.readers.look l).groups.look (groupOf t)).presence

/-- A lane source is idle while its lane is not in RUN or its group is ABSENT (R69); a port source is
never idle. -/
def ringIdle (s : State) (r : RingId) : Bool :=
  match laneTrackOf r with
  | some (l, t) => decide ((s.lanes.look l).state ≠ .run) || trackPresence s l t == .absent
  | none => false

/-- Whether a source is valid (R35, R60, R64, R65). -/
def srcValid (s : State) : Src → Bool
  | .tone => true
  | .silence => true
  | .ring r =>
    match laneTrackOf r with
    | some (l, t) =>
      decide ((s.lanes.look l).state = .run) &&
        (trackPresence s l t == .present || trackPresence s l t == .lapsing)
    | none =>
      match sapOf r with
      | some p => (s.saps.look p).present
      | none => false

/-- The source of an entry as it is used: a source above S257 is used as S257 (R79). -/
def Entry.src (e : Entry) : Src := Src.ofNumber e.source.toNat

/-- The delay target of an entry as it is used: one outside 16..2048 samples is used as 64 (R79). -/
def Entry.delayUsed (e : Entry) : Nat :=
  if 16 ≤ e.delay.toNat ∧ e.delay.toNat ≤ 2048 then e.delay.toNat else 64

/-- The tag reference that an entry holds: a code that names no reference is used as NONE (R79). -/
def Entry.tagRef (e : Entry) : TagRef := (tagRefOfCode e.tag).getD .none

/-- The tag reference as it is latched and judged: one that differs from the counted reference is
taken as NONE (R79). -/
def Entry.tagUsed (e : Entry) : TagRef := if e.tagRef = e.counted then e.counted else .none

/-- The code of an entry's three checked fields as they stand (R79). -/
def Entry.computedCode (e : Entry) : BitVec 16 := Config.checkCode e.source e.tag e.delay

/-- Whether an entry matches (R79). -/
def Entry.matches (e : Entry) : Bool := e.code == e.computedCode

/-- The timing lane of a destination: its own lane, or its port's reference lane (R66). -/
def timingLane (s : State) (d : DestId) : LaneId :=
  match laneTrackOf d with
  | some (l, _) => l
  | none =>
    match sapOf d with
    | some p => (s.saps.look p).refLane
    | none => 0

/-- The position at which an entry of delay target `delay` is aligned to a source (R72). -/
def alignedIndex (s : State) (src : Src) (delay : Nat) : RingPos :=
  match src with
  | .ring r => s.writeIndex.look r - BitVec.ofNat 12 delay
  | _ => 0

/-- The distance of a read index; the tone and silence sources have none (R71). -/
def distance (s : State) (src : Src) (i : RingPos) : Option Nat :=
  match src with
  | .ring r => some (s.writeIndex.look r - i).toNat
  | _ => none

/-- The index moved on by `n` samples, modulo 4096, or modulo 48 for the tone and silence sources
(R60, R68, R70). An index outside 0..47 that an upset source has left is folded so at its next move
(log 37). -/
def advanceIndex (src : Src) (i : RingPos) (n : Nat) : RingPos :=
  match src with
  | .ring _ => i + BitVec.ofNat 12 n
  | _ => BitVec.ofNat 12 ((i.toNat + n) % 48)

/-- The index moved back by `a` samples (R76). -/
def nudgeIndex (src : Src) (i : RingPos) (a : Int) : RingPos :=
  match src with
  | .ring _ => i - BitVec.ofInt 12 a
  | _ => BitVec.ofInt 12 (((i.toNat : Int) - a) % 48)

/-! ## Tag reference counts (R140) -/

/-- One naming of a tag reference begins: a record gains one count. -/
def countUp (t : TagRef) (s : State) : State :=
  match t with
  | .record n => modTag n (fun r => { r with count := r.count + 1 }) s
  | _ => s

/-- One naming of a tag reference ends: a record loses one count. -/
def countDown (t : TagRef) (s : State) : State :=
  match t with
  | .record n => modTag n (fun r => { r with count := r.count - 1 }) s
  | _ => s

/-- A change ends: the record its tag field names loses the count the change gave it (R113). -/
def endChange (c : Change) (s : State) : State := countDown (c.tag.getD .none) s

/-- Changes end, in order. -/
def endChanges (cs : List Change) (s : State) : State := cs.foldl (fun s c => endChange c s) s

/-! ## Take queues -/

/-- The changes of a lane's pool: staged and queued together (R115). -/
def TakeUnit.poolCount (t : TakeUnit) : Nat :=
  (t.staging.look 0).length + (t.staging.look 1).length + (t.staging.look 2).length +
    (t.queue.map fun b => b.changes.length).sum

/-- Load the timer afresh from the batch at the front, or make it IDLE and remove the COMMAND hold
when the queue is empty (R124, R127). A head of delay 0 stays one that no batch is applied for at the switch
point that has come, where the head it replaces was one; a head of delay 0 that a second removal brings behind a
head of a longer delay is applied at that switch point (R121 over R123, log 39). -/
def TakeUnit.reload (t : TakeUnit) : TakeUnit :=
  match t.queue with
  | [] => { t with timer := .idle, holdCommand := false, freshHead := false }
  | b :: _ => { t with
      timer := .counting b.delay
      freshHead := t.freshHead && decide (b.delay = 0) }

/-- Whether a take timer has a hold reason (R124). -/
def TakeUnit.held (t : TakeUnit) : Bool := t.holdCommand || t.holdPark

end Sys2Proof.Machine
end

