-- ==== Sys2Proof/Machine/Flags.lean ====
section
/-! DEFINITION. Fault flags, notices and the lines they drive (spec/09, spec/10): the place of each
flag in the flag vector, its group, setting a flag and handing it to the Command Units, the group
summary, the FAULT line and the ALERT lines. -/

namespace Sys2Proof.Machine

/-- Whether the engine is out of reset, so that lane timers and ports run (R169). -/
def awake (s : State) : Bool := s.phase == .starting || s.phase == .running

/-- The bit of a flag in the flag vector: bit b of vector byte k is bit 8k+b (R175). -/
def FaultFlag.bit : FaultFlag → Nat
  | .lockLost l => l.val
  | .formatChanged l => 8 + l.val
  | .cellErr l => 16 + l.val
  | .crowded l => 24 + l.val
  | .slip l => 32 + l.val
  | .portClockLost p => 40 + p.val
  | .portLate c => 44 + c.val
  | .entryCheck => 47
  | .portLost c => 48 + c.val
  | .blockErr c => 51 + c.val
  | .sceneLoadFail => 54
  | .sceneSaveFail => 55

/-- The group of a flag (R156). -/
def FaultFlag.group : FaultFlag → FaultGroup
  | .lockLost _ => .lane
  | .formatChanged _ => .lane
  | .cellErr _ => .carriage
  | .crowded _ => .carriage
  | .slip _ => .audio
  | .portClockLost _ => .audio
  | .entryCheck => .patch
  | .portLate _ => .control
  | .portLost _ => .control
  | .blockErr _ => .control
  | .sceneLoadFail => .store
  | .sceneSaveFail => .store

/-- A mask of one bit of the flag vector. -/
def flagMask (f : FaultFlag) : BitVec 56 := BitVec.twoPow 56 f.bit

/-- The flags of a group, as a mask of the flag vector (R156, R175). -/
def groupMask : FaultGroup → BitVec 56
  | .lane => 0x0000000000FFFF
  | .carriage => 0x000000FFFF0000
  | .audio => 0x000FFF00000000
  | .patch => 0x00800000000000
  | .control => 0x3F700000000000
  | .store => 0xC0000000000000

/-- The six groups in the bit order of R175. -/
def allGroups : List FaultGroup := [.lane, .carriage, .audio, .patch, .control, .store]

/-- Whether a flag is set. -/
def flagSet (s : State) (f : FaultFlag) : Bool := s.flags.getLsbD f.bit

/-- Whether some flag of a group is set (R162). -/
def groupSet (s : State) (g : FaultGroup) : Bool := s.flags &&& groupMask g != 0

/-- The group summary as a group byte (R154, R162). -/
def groupSummary (s : State) : Byte :=
  allGroups.foldl (fun b g => if groupSet s g then b ||| BitVec.twoPow 8 g.bit else b) 0

/-- The FAULT line is asserted exactly while some flag is set in an unmasked group (R161), and is
released while the engine is unpowered or held in reset (R169). -/
def faultLine (s : State) : Bool :=
  awake s && allGroups.any fun g => s.lineMask.getLsbD g.bit && groupSet s g

/-- A port's ALERT line is asserted exactly while some notice flag of the port is set and enabled in
its notice mask (R153); during start-up and in reset it is released (R153, R169). -/
def alertLine (s : State) (c : CpId) : Bool :=
  s.phase == .running && ((s.ports.look c).notices &&& (s.ports.look c).noticeMask != 0)

/-- The notices of a port with one set (R151). -/
def CtrlPort.notify (p : CtrlPort) (n : Notice) : CtrlPort :=
  { p with notices := p.notices ||| BitVec.twoPow 7 n.bit }

/-- Set a notice flag of a control port (R151). -/
def setNotice (c : CpId) (n : Notice) (s : State) : State := modPort c (·.notify n) s

/-- A port that a newly set flag of group `g` is handed to receives FAULT where its fault-notice mask
enables the group (R152). -/
def CtrlPort.handFault (p : CtrlPort) (g : FaultGroup) : CtrlPort :=
  if p.faultMask.getLsbD g.bit then p.notify .fault else p

/-- Hand a newly set flag of group `g` to the three Command Units (R152). -/
def handFault (g : FaultGroup) (s : State) : State :=
  { s with ports := Table.gen fun c => (s.ports.look c).handFault g }

/-- Set a fault flag (R156). When it was clear it is newly set and handed to the Command Units; during
start-up the handing waits for the last step (R163). -/
def setFlag (f : FaultFlag) (s : State) : State :=
  if flagSet s f then s
  else
    let s' := { s with flags := s.flags ||| flagMask f }
    if s.phase = .running then handFault f.group s' else s'

/-- The condition flags whose conditions hold: CROWDED by the lane's crowding, PORT_CLOCK_LOST by the
port's word-clock presence (R156). -/
def conditionFlags (s : State) : List FaultFlag :=
  ((List.finRange 8).filter fun l => (s.writers.look l).crowding != .none).map .crowded ++
    ((List.finRange 4).filter fun p => !(s.saps.look p).present).map .portClockLost

/-- Clear a selection of flags; a named condition flag whose condition holds is set again within the
same event, as a new setting; with ENTRY_CHECK the first-suspect record becomes absent (R158,
R159). -/
def clearFlags (selection : BitVec 56) (s : State) : State :=
  let s1 := { s with
    flags := s.flags &&& ~~~selection
    firstSuspect := if selection.getLsbD FaultFlag.entryCheck.bit then none else s.firstSuspect }
  ((conditionFlags s).filter fun f => selection.getLsbD f.bit).foldl (fun s f => setFlag f s) s1

/-- The flag vector in its 7 bytes (R175). -/
def flagBytes (s : State) : List Byte :=
  (List.range 7).map fun k => s.flags.extractLsb' (8 * k) 8

/-- The first-suspect record in two bytes (R177). -/
def suspectBytes (s : State) : List Byte :=
  match s.firstSuspect with
  | none => [0, 0]
  | some d => [1, BitVec.ofNat 8 d.val]

/-- The LANE notice to the port that holds Ln, when start-up has completed (R19). -/
def laneNotice (l : LaneId) (s : State) : State :=
  match s.holders.look (laneItem l) with
  | some c => if s.phase = .running then setNotice c .lane s else s
  | none => s

end Sys2Proof.Machine
end

