-- ==== Sys2Proof/Machine/SamplePath.lean ====
section
/-! DEFINITION. The sample path of a destination (spec/04): the tone and silence sources (R60), a
sample read (R68, R69, R73), the slip rule (R71), the silent advance (R70), alignment (R72), the end
of a fade (R74) and the application of a nudge (R76). -/

namespace Sys2Proof.Machine

/-- `a / n` rounded to the nearest whole value, halves away from zero (R60, R73). -/
def roundDiv (a : Int) (n : Nat) : Int :=
  if 0 ≤ a then (2 * a + n) / (2 * n : Int) else -((2 * -a + n) / (2 * n : Int))

/-- The amplitude 8388607 × 10^(L/20) of the tone, rounded, for L = −30 + k dBFS (R60, log 31). -/
def toneAmplitude (k : Nat) : Int :=
  [265271, 297639, 333956, 374705, 420426, 471726, 529285, 593868, 666331, 747635, 838861,
    941217, 1056063, 1184922, 1329505, 1491729, 1673747, 1877975, 2107123, 2364231,
    2652710].getD k 0

/-- The sine of 2πk/48 for k = 0..12, times 10^18 (R60, log 31). -/
def quarterSine (k : Nat) : Int :=
  [0, 130526192220051592, 258819045102520762, 382683432365089772, 500000000000000000,
    608761429008720639, 707106781186547524, 793353340291235165, 866025403784438647,
    923879532511286756, 965925826289068287, 991444861373810411, 1000000000000000000].getD k 0

/-- The sine of 2πφ/48 times 10^18, for φ = 0..47. -/
def sine48 (p : Nat) : Int :=
  if p ≤ 12 then quarterSine p
  else if p ≤ 24 then quarterSine (24 - p)
  else if p ≤ 36 then -quarterSine (p - 24)
  else -quarterSine (48 - p)

/-- The tone sample at place φ for a level in dBFS (R60). A place outside 0..47, which only an upset source
can leave, is taken modulo 48 (log 37). -/
def toneSample (level : Int) (p : Nat) : Sample :=
  BitVec.ofInt 24 (roundDiv (toneAmplitude (level + 30).toNat * sine48 (p % 48)) (10 ^ 18))

/-- The sample of a source at an index (R60, R68, R69). -/
def fetchSample (s : State) (src : Src) (i : RingPos) : Sample :=
  match src with
  | .silence => 0
  | .tone => toneSample s.toneLevel i.toNat
  | .ring r => if ringIdle s r then 0 else ringSample s r i

/-- The index after a read: moved on by 1, or placed at the delay target for an idle source (R68,
R69). -/
def indexAfterRead (s : State) (src : Src) (delay : Nat) (i : RingPos) : RingPos :=
  match src with
  | .ring r => if ringIdle s r then alignedIndex s src delay else advanceIndex src i 1
  | _ => advanceIndex src i 1

/-- A distance below 8 or above 4000 samples is a slip; sources without a ring do not slip (R71). -/
def slips (s : State) (src : Src) (i : RingPos) : Bool :=
  match distance s src i with
  | some d => decide (d < 8) || decide (4000 < d)
  | none => false

/-- The index after the slip rule (R71). -/
def afterSlip (s : State) (src : Src) (delay : Nat) (i : RingPos) : RingPos :=
  if slips s src i then alignedIndex s src delay else i

/-- The mix of a fade of length `n` at position `k` (R73). -/
def mixSamples (prev new : Sample) (n k : Nat) : Sample :=
  BitVec.ofInt 24 (roundDiv (prev.toInt * ((n : Int) - k) + new.toInt * k) n)

/-- A fade part whose position has reached its length is dropped (R74). -/
def endFade (f : Option Fade) : Option Fade :=
  match f with
  | some f => if f.length ≤ f.pos then none else some f
  | none => none

/-- The sample that a read of an entry yields (R68, R73, R89). -/
def entrySample (s : State) (e : Entry) : Sample :=
  match e.health with
  | .suspect => 0
  | .good =>
    let x := fetchSample s e.src e.readIndex
    match e.fade with
    | none => x
    | some f => mixSamples (fetchSample s f.prev f.prevIndex) x f.length f.pos

/-- The indices of an entry after a move, before the slip rule: by a read when `n` is none, by a
silent advance of `n` samples otherwise (R68, R70, R73). -/
def movedIndex (s : State) (n : Option Nat) (src : Src) (delay : Nat) (i : RingPos) : RingPos :=
  match n with
  | none => indexAfterRead s src delay i
  | some n => advanceIndex src i n

/-- An entry after a read (`n` is none) or a silent advance of `n` samples: each read index moves, the
fade position rises, the slip rule is applied to each index against its own source, and a fade that
has reached its length ends (R68, R70, R73, R74). -/
def movedEntry (s : State) (n : Option Nat) (e : Entry) : Entry :=
  let step := n.getD 1
  { e with
    readIndex := afterSlip s e.src e.delayUsed (movedIndex s n e.src e.delayUsed e.readIndex)
    fade := endFade (e.fade.map fun f =>
      { f with
        prevIndex := afterSlip s f.prev e.delayUsed (movedIndex s n f.prev e.delayUsed f.prevIndex)
        pos := f.pos + step }) }

/-- Whether some read index of an entry slips in such a move (R71). -/
def moveSlips (s : State) (n : Option Nat) (e : Entry) : Bool :=
  slips s e.src (movedIndex s n e.src e.delayUsed e.readIndex) ||
    match e.fade with
    | some f => slips s f.prev (movedIndex s n f.prev e.delayUsed f.prevIndex)
    | none => false

/-- Move the entry of a destination, and set SLIP of its timing lane where an index slipped (R71). -/
def moveEntry (n : Option Nat) (d : DestId) (s : State) : State :=
  let e := s.entries.look d
  let s' := modEntry d (movedEntry s n) s
  if moveSlips s n e then setFlag (.slip (timingLane s d)) s' else s'

/-- One sample read of a destination: the sample it yields and the state after it (R68, R73). -/
def readDest (d : DestId) (s : State) : Sample × State :=
  (entrySample s (s.entries.look d), moveEntry none d s)

/-- Sample reads of destinations in order: the samples and the state after them. -/
def readDests : List DestId → State → List Sample × State
  | [], s => ([], s)
  | d :: ds, s =>
    let (x, s1) := readDest d s
    let (xs, s2) := readDests ds s1
    (x :: xs, s2)

/-- The silent advance of a destination by `n` samples; 0 samples change nothing (R70). -/
def silentAdvance (n : Nat) (d : DestId) (s : State) : State :=
  if n = 0 then s else moveEntry (some n) d s

/-- Align the entry to its source at its delay target (R72). -/
def Entry.aligned (s : State) (e : Entry) : Entry :=
  { e with readIndex := alignedIndex s e.src e.delayUsed }

/-- Apply a pending nudge: the read index, and the previous one of a fade, move back by its amount
(R76). -/
def Entry.nudged (e : Entry) : Entry :=
  match e.nudge with
  | none => e
  | some a =>
    { e with
      readIndex := nudgeIndex e.src e.readIndex a
      fade := e.fade.map fun f => { f with prevIndex := nudgeIndex f.prev f.prevIndex a }
      nudge := none }

/-- Apply the pending nudges of every destination that a lane times (R76). -/
def applyNudges (l : LaneId) (s : State) : State :=
  { s with
    entries := Table.gen fun d =>
      if timingLane s d = l then (s.entries.look d).nudged else s.entries.look d }

end Sys2Proof.Machine
end

