-- ==== Sys2Proof/Machine/CellReader.lean ====
section
/-! DEFINITION. The Cell Reader (spec/02): finding and checking cells (R27, R28), samples into the lane
sources (R29), tag assembly (R36, R37), the settling of a frame (R31), the presence map (R33, R38) and
what a departure from RUN does to the reader (R34). Holds the meaning of SOUND_CELL. -/

namespace Sys2Proof.Machine

/-! ## Parsing (R27, R28) -/

/-- One sample set: the samples of a group's three tracks. -/
structure SampleSet where
  first : Sample
  second : Sample
  third : Sample
  deriving DecidableEq, Repr

/-- The content of a valid cell. -/
structure CellContent where
  group : GroupId
  frameStart : Bool
  sets : List SampleSet
  tags : Table Byte 3
  words : List LaneWord
  deriving DecidableEq, Repr

/-- What stands at a place of the blanking. -/
inductive CellScan where
  /-- No lead pair. -/
  | noPair
  /-- A block of another kind: the lead pair and the kind word (R27). -/
  | other
  /-- A discarded cell of `length` words (R28). -/
  | discarded (length : Nat)
  /-- A valid cell. -/
  | valid (c : CellContent)
  deriving DecidableEq, Repr

/-- The sample sets of `n` × 9 words (R178). -/
def parseSets : Nat → List LaneWord → List SampleSet
  | 0, _ => []
  | n + 1, ws =>
    let v k := wordValue (ws.getD k 0)
    ⟨sampleOf (v 0) (v 1) (v 2), sampleOf (v 3) (v 4) (v 5), sampleOf (v 6) (v 7) (v 8)⟩ ::
      parseSets n (ws.drop 9)

/-- The group of a group/count word's value (R178). -/
def cellGroup (b : Byte) : GroupId := (b.extractLsb' 0 3).toFin

/-- The set count of a group/count word's value (R178). -/
def cellSetCount (b : Byte) : Nat := (b.extractLsb' 3 3).toNat

/-- Read the words after a well-formed kind word of a sound cell: `g` is the group/count word, `body`
the words up to the end of the blanking (R28). -/
def scanBody (k g : LaneWord) (body : List LaneWord) : CellScan :=
  let b := wordValue g
  let n := cellSetCount b
  if !wellFormedWord g || b.getLsbD 7 || decide (4 < n) then .discarded 4
  else if body.length < 9 * n + 4 then .discarded (4 + body.length)
  else
    let content := body.take (9 * n + 3)
    let check := body.getD (9 * n + 3) 0
    if content.all wellFormedWord && check == cellCheck (k :: g :: content) then
      .valid
        { group := cellGroup b
          frameStart := b.getLsbD 6
          sets := parseSets n content
          tags := Table.gen fun j => wordValue (content.getD (9 * n + j.val) 0)
          words := leadFirst :: leadSecond :: k :: g :: body.take (9 * n + 4) }
    else .discarded (9 * n + 8)

/-- What stands at the start of these words, which run to the end of the blanking (R27, R28). -/
def scanCell (ws : List LaneWord) : CellScan :=
  match ws with
  | a :: b :: rest =>
    if a = leadFirst ∧ b = leadSecond then
      match rest with
      | [] => .discarded 2
      | k :: rest =>
        if !wellFormedWord k then .discarded 3
        else if wordValue k ≠ soundKind then .other
        else
          match rest with
          | [] => .discarded 3
          | g :: body => scanBody k g body
    else .noPair
  | _ => .noPair

/-- The words of a blanking that belong to no sound cell, in order (R40): the words of valid and of
discarded cells are left out, those of other blocks are kept. -/
def otherWords : Nat → List LaneWord → List LaneWord
  | 0, ws => ws
  | _ + 1, [] => []
  | n + 1, w :: ws =>
    match scanCell (w :: ws) with
    | .noPair => w :: otherWords n ws
    | .other => (w :: ws).take 3 ++ otherWords n ((w :: ws).drop 3)
    | .discarded len => otherWords n ((w :: ws).drop len)
    | .valid c => otherWords n ((w :: ws).drop c.words.length)

/-! ## Taking a cell (R29, R36, R37, R39) -/

/-- Change what the reader holds of one group. -/
def Reader.modGroup (g : GroupId) (f : GroupRead → GroupRead) (r : Reader) : Reader :=
  { r with groups := r.groups.put g (f (r.groups.look g)) }

/-- One sample set of group `g`: written into the three sources, or dropped with the surplus mark when
the frame already holds S sets (R29). -/
def takeSet (l : LaneId) (g : GroupId) (x : SampleSet) (s : State) : State :=
  if (s.lanes.look l).frameSamples ≤ ((s.readers.look l).groups.look g).setCount then
    modReader l (fun r => { r with surplus := true }) s
  else
    modReader l (Reader.modGroup g fun q => { q with setCount := q.setCount + 1 })
      (writeSample (laneRing l (trackOf g 2)) x.third
        (writeSample (laneRing l (trackOf g 1)) x.second
          (writeSample (laneRing l (trackOf g 0)) x.first s)))

/-- A tag byte for a track (R36, R37): a flagged cell starts an assembly, another appends to one that
is building; at 32 bytes the block is kept and the assembly is idle. -/
def TrackRead.tagByte (flag : Bool) (b : Byte) (t : TrackRead) : TrackRead :=
  if flag then { t with assembly := [b] }
  else if t.assembly = [] then t
  else if t.assembly.length + 1 < 32 then { t with assembly := t.assembly ++ [b] }
  else { assembly := [], kept := some (Table.gen fun i => (t.assembly ++ [b]).getD i.val 0) }

/-- The tag bytes of a cell, for the tracks of its group. -/
def Reader.tagBytes (c : CellContent) (r : Reader) : Reader :=
  { r with
    tracks := Table.gen fun t =>
      if groupOf t = c.group then
        (r.tracks.look t).tagByte c.frameStart (c.tags.look ⟨t.val % 3, by omega⟩)
      else r.tracks.look t }

/-- Every tag assembly of a lane is abandoned; the kept blocks stay (R36). -/
def Reader.abandonTags (r : Reader) : Reader :=
  { r with tracks := Table.gen fun t => { r.tracks.look t with assembly := [] } }

/-- Whether an input cell of a group is carried through under a plan (R39). -/
def Plan.passes (p : Plan) (g : GroupId) : Bool := !p.strip.getLsbD g.val && !p.emit.getLsbD g.val

/-- A valid cell is taken: its sets, its mark for presence, its tag bytes, and its handing to the Cell
Writer (R29, R33, R36, R39). -/
def takeCell (l : LaneId) (c : CellContent) (s : State) : State :=
  let s1 := c.sets.foldl (fun s x => takeSet l c.group x s) s
  modReader l (fun r =>
    let r1 := (r.modGroup c.group fun q => { q with cellMark := true }).tagBytes c
    { r1 with
      handed := r.handed ++ [⟨c.group, (s.lanes.look l).plan.passes c.group, c.words⟩] }) s1

/-- Whether a lane's reader parses a lead pair now: RUN, from the first input frame start on, within
the Lc cell lines of the input frame (R27, R32). -/
def cellsParsed (s : State) (l : LaneId) : Bool :=
  (s.phase == .running) && decide ((s.lanes.look l).state = .run) && (s.readers.look l).parsing &&
    match (s.lanes.look l).expected with
    | some c => decide ((s.writers.look l).linePos < c.cellLines)
    | none => false

/-- SOUND_CELL (R27, R28, R29): a lead pair on a cell line in RUN. A discarded cell sets CELL_ERR and
abandons every tag assembly of the lane. -/
def soundCell (l : LaneId) (words : List LaneWord) (s : State) : State :=
  if cellsParsed s l then
    match scanCell words with
    | .noPair => s
    | .other => s
    | .discarded _ => setFlag (.cellErr l) (modReader l Reader.abandonTags s)
    | .valid c => takeCell l c s
  else s

/-- The meaning of SOUND_CELL. -/
def execSoundCell (l : LaneId) (words : List LaneWord) (s : State) :
    Host.Outcome State Fault Refusal :=
  .next (soundCell l words s)

/-! ## Settling a frame (R31) -/

/-- The zeros that complete the source of track `t` (R31). -/
def settleTrack (l : LaneId) (t : TrackId) (s : State) : State :=
  padSource (laneRing l t)
    ((s.lanes.look l).frameSamples - ((s.readers.look l).groups.look (groupOf t)).setCount) s

/-- Settle the frame that ends: pad every source, flag a surplus once, start the counts afresh
(R31). -/
def settleFrame (l : LaneId) (s : State) : State :=
  let s1 := (List.finRange 24).foldl (fun s t => settleTrack l t s) s
  let s2 := if (s.readers.look l).surplus then setFlag (.cellErr l) s1 else s1
  modReader l (fun r =>
    { r with
      surplus := false
      groups := Table.gen fun g => { r.groups.look g with setCount := 0 } }) s2

/-! ## Presence (R33, R34, R38) -/

/-- The presence state of a group after a frame with or without a valid cell (R33). -/
def GroupRead.evaluated (q : GroupRead) : GroupRead :=
  match q.presence, q.cellMark with
  | .absent, true => { q with presence := .arriving, misses := 0, cellMark := false }
  | .absent, false => { q with presence := .absent, misses := 0, cellMark := false }
  | .arriving, true => { q with presence := .present, misses := 0, cellMark := false }
  | .arriving, false => { q with presence := .absent, misses := 0, cellMark := false }
  | .present, true => { q with presence := .present, misses := 0, cellMark := false }
  | .present, false => { q with presence := .lapsing, misses := 1, cellMark := false }
  | .lapsing, true => { q with presence := .present, misses := 0, cellMark := false }
  | .lapsing, false =>
    if q.misses < 2 then { q with presence := .lapsing, misses := 2, cellMark := false }
    else { q with presence := .absent, misses := 0, cellMark := false }

/-- Evaluate the presence map, and drop the kept blocks of the groups that become ABSENT (R33,
R38). -/
def Reader.evaluate (r : Reader) : Reader :=
  { r with
    groups := Table.gen fun g => (r.groups.look g).evaluated
    tracks := Table.gen fun t =>
      let q := r.groups.look (groupOf t)
      if q.presence ≠ .absent ∧ q.evaluated.presence = .absent then
        { r.tracks.look t with kept := none }
      else r.tracks.look t }

/-- A departure from RUN: every group ABSENT, marks cleared, assemblies abandoned, kept blocks
removed, parsing stopped; the frame's counts and its surplus mark stand (R12, R32, R34, R36, R38). -/
def Reader.departed (r : Reader) : Reader :=
  { r with
    groups := Table.gen fun g =>
      { r.groups.look g with presence := .absent, misses := 0, cellMark := false }
    tracks := Table.fill 24 ⟨[], none⟩
    parsing := false
    handed := [] }

end Sys2Proof.Machine
end

