-- ==== Sys2Proof/Machine/CellWriter.lean ====
section
/-! DEFINITION. The Cell Writer (spec/03): the places of a cell line (R46), emitted cells (R48, R49,
R51), the output blanking (R45), crowding (R47), the tag latch (R52 to R55) and the completion of the
destinations at a frame start (R50). Holds the meaning of CELL_LINE. -/

namespace Sys2Proof.Machine

/-! ## Emitted cells -/

/-- The cumulative sets of a group after line `i` lines of a frame: floor(S × i / Lc) (R48). -/
def cadence (c : FormatClass) (i : Nat) : Nat := c.samples * i / c.cellLines

/-- The sets of an emitted cell on line `i` (R48, log 17). -/
def cellSets (c : FormatClass) (i : Nat) : Nat := cadence c (i + 1) - cadence c i

/-- The destinations of a group, in track order (R49). -/
def groupDests (l : LaneId) (g : GroupId) : List DestId :=
  [laneDest l (trackOf g 0), laneDest l (trackOf g 1), laneDest l (trackOf g 2)]

/-- Change what the writer holds of one group. -/
def Writer.modGroup (g : GroupId) (f : GroupWrite → GroupWrite) (w : Writer) : Writer :=
  { w with groups := w.groups.put g (f (w.groups.look g)) }

/-- One set of an emitted cell: one read of each destination of the group, or three zero samples once
the group has been read for S sets of the frame in progress (R49). -/
def emitSet (l : LaneId) (g : GroupId) (s : State) : List LaneWord × State :=
  if (s.lanes.look l).frameSamples ≤ ((s.writers.look l).groups.look g).reads then
    (([0, 0, 0] : List Sample).flatMap sampleWords, s)
  else
    let (xs, s1) := readDests (groupDests l g) s
    (xs.flatMap sampleWords,
      modWriter l (Writer.modGroup g fun q => { q with reads := q.reads + 1 }) s1)

/-- `n` sets of an emitted cell. -/
def emitSets (l : LaneId) (g : GroupId) : Nat → State → List LaneWord × State
  | 0, s => ([], s)
  | n + 1, s =>
    let (ws, s1) := emitSet l g s
    let (ws', s2) := emitSets l g n s1
    (ws ++ ws', s2)

/-- The tag words of an emitted cell on line `i`: byte i of the latched blocks for the first 32 lines,
zeros after (R51). -/
def emittedTags (w : Writer) (g : GroupId) (i : Nat) : List LaneWord :=
  (List.finRange 3).map fun j =>
    guarded (match asFin 32 i with
      | some k => (w.latched.look (trackOf g j)).look k
      | none => 0)

/-- The group/count word's value (R178). -/
def groupCountByte (g : GroupId) (sets : Nat) (flag : Bool) : Byte :=
  BitVec.ofNat 8 (g.val + 8 * sets + if flag then 64 else 0)

/-- One emitted cell of group `g` on line `i` (R48, R51). Where two input frames fall into the first frame of
RUN, the cadence starts afresh with the second, and the emitted set count passes the S of the locked class
(log 45). -/
def emitCell (l : LaneId) (c : FormatClass) (i : Nat) (g : GroupId) (s : State) :
    List LaneWord × State :=
  let n := cellSets c i
  let (samples, s1) := emitSets l g n s
  let content := [guarded soundKind, guarded (groupCountByte g n (i == 0))] ++ samples ++
    emittedTags (s.writers.look l) g i
  ([leadFirst, leadSecond] ++ content ++ [cellCheck content],
    modWriter l (Writer.modGroup g fun q => { q with emitted := q.emitted + n }) s1)

/-- The emitted cells of a line, in ascending group number (R45). -/
def emitCells (l : LaneId) (c : FormatClass) (i : Nat) : List GroupId → State →
    List LaneWord × State
  | [], s => ([], s)
  | g :: gs, s =>
    let (ws, s1) := emitCell l c i g s
    let (ws', s2) := emitCells l c i gs s1
    (ws ++ ws', s2)

/-! ## The places of a line (R46) -/

/-- The groups of the emit set, ascending. -/
def emitGroups (p : Plan) : List GroupId := (List.finRange 8).filter fun g => p.emit.getLsbD g.val

/-- The pass-through groups of a line: taken in ascending number, a group is carried with all its
cells where they fit into the places left. The cells carried, in the order of R45, and whether a group
was left out. -/
def placePass (handed : List HandedCell) : List GroupId → Nat → List HandedCell × Bool
  | [], _ => ([], false)
  | g :: gs, places =>
    let cells := handed.filter fun h => decide (h.group = g) && h.passThrough
    if cells.length ≤ places then
      let (cs, out) := placePass handed gs (places - cells.length)
      (cells ++ cs, out)
    else
      let (cs, _) := placePass handed gs places
      (cs, true)

/-- Places, carried groups and whether a group is left out, for a line of a lane (R46). -/
structure LinePlan where
  emitted : List GroupId
  passed : List HandedCell
  leftOut : Bool
  deriving DecidableEq, Repr

/-- The choice of R46. -/
def planLine (c : FormatClass) (p : Plan) (handed : List HandedCell) : LinePlan :=
  let wanted := emitGroups p
  let carried := wanted.take c.room
  let others := (List.finRange 8).filter fun g => !p.emit.getLsbD g.val
  let (cells, out) := placePass handed others (c.room - carried.length)
  ⟨carried, cells, out || decide (c.room < wanted.length)⟩

/-- A group is left out of a line: CROWDED is set where the condition arises (R47). -/
def crowd (l : LaneId) (s : State) : State :=
  let s1 := modWriter l (fun w => { w with crowding := .thisFrame }) s
  if (s.writers.look l).crowding = .none then setFlag (.crowded l) s1 else s1

/-- The output blanking of a line: cells, then the other words as far as they fit, then fill words
(R45). -/
def layLine (cells other : List LaneWord) (width : Nat) : List LaneWord :=
  ((cells ++ other) ++ List.replicate width fillWord).take width

/-- Build the blanking of the cell line that a lane in RUN has reached; its active picture is carried as it
arrived (R45 to R49, R51). -/
def buildLine (l : LaneId) (c : FormatClass) (line : FeedLine) (s : State) : State :=
  let i := (s.writers.look l).linePos
  let choice := planLine c (s.lanes.look l).plan (s.readers.look l).handed
  let (emitted, s1) := emitCells l c i choice.emitted s
  let s2 := if choice.leftOut then crowd l s1 else s1
  let cells := emitted ++ choice.passed.flatMap (·.words)
  modLane l (fun n => { n with
    output := { line with
      blanking := layLine cells (otherWords line.blanking.length line.blanking) line.blanking.length } }) s2

/-- A line is put out as it arrived (R44, R45). -/
def carryLine (l : LaneId) (line : FeedLine) (s : State) : State :=
  modLane l (fun n => { n with output := line }) s

/-- The output of a line of the cell region (R44, R45, R57): built where the lane writes and the line is one
of the Lc cell lines, carried as it arrived otherwise. -/
def putLine (l : LaneId) (line : FeedLine) (s : State) : State :=
  match (s.lanes.look l).expected with
  | some c =>
    if (s.lanes.look l).state = .run ∧ (s.readers.look l).parsing = true ∧
        (s.writers.look l).linePos < c.cellLines then buildLine l c line s
    else carryLine l line s
  | none => carryLine l line s

/-- Lc of the lane's class, at which the cell line position stops (R43, R48); without a class the largest
Lc of any class (log 42). -/
def Lane.lineLimit (n : Lane) : Nat :=
  match n.expected with
  | some c => c.cellLines
  | none => 1100

/-- The cell line position after one more line of the cell region: it stops at Lc (R48). -/
def Writer.lineCounted (limit : Nat) (w : Writer) : Writer :=
  { w with linePos := if w.linePos < limit then w.linePos + 1 else w.linePos }

/-- A line of the cell region has passed, in whatever lane state: it is counted for the detector (R4) and
for the cell line position (R48), and the cells handed for it are consumed. -/
def countLine (l : LaneId) (s : State) : State :=
  modWriter l (Writer.lineCounted (s.lanes.look l).lineLimit)
    (modLane l (fun n => { n with inputLines := n.inputLines + 1 })
      (modReader l (fun r => { r with handed := [] }) s))

/-- CELL_LINE: a line of a lane's input has arrived whole (R4, R44, R45). A line outside the cell region is
carried as it arrived and counts for nothing; while RESET_N is low every line is carried (R169). -/
def cellLine (l : LaneId) (line : FeedLine) (s : State) : State :=
  match s.phase with
  | .unpowered => s
  | .heldReset => carryLine l line s
  | _ => if line.cellRegion then countLine l (putLine l line s) else carryLine l line s

/-- The meaning of CELL_LINE. -/
def execCellLine (l : LaneId) (line : FeedLine) (s : State) : Host.Outcome State Fault Refusal :=
  .next (cellLine l line s)

/-! ## The tag latch (R52 to R55, R179) -/

/-- The block of a record: its stored fields and the four fields the engine writes (R54, R55,
R179). -/
def recordBlock (c : TagContent) (src : Src) (cls : Option FormatClass) (valid : Bool) : TagBlock :=
  let body := [c.kind, BitVec.ofNat 8 c.label.length] ++ padBytes 16 c.label ++
    numBytes src.number ++ [classCode cls, boolByte valid] ++
    (List.finRange 8).map fun i => c.user.look i
  let all := body ++ numBytes (byteSum body % 65536)
  Table.gen fun i => all.getD i.val 0

/-- The kept incoming tag block of a source, when it is a valid lane source that holds one (R53,
R81). -/
def passBlock (s : State) (src : Src) : Option TagBlock :=
  match src with
  | .ring r =>
    match laneTrackOf r with
    | some (l, t) => if srcValid s src then ((s.readers.look l).tracks.look t).kept else none
    | none => none
  | _ => none

/-- The block latched for track `t` of lane `l` in state `s` (R52, R53, R54). -/
def latchBlock (s : State) (l : LaneId) (t : TrackId) : TagBlock :=
  let e := s.entries.look (laneDest l t)
  match e.tagUsed with
  | .none => zeroBlock
  | .pass => if e.health = .good then (passBlock s e.src).getD zeroBlock else zeroBlock
  | .record n =>
    match (s.tags.look n).content with
    | some c =>
      recordBlock c e.src (s.lanes.look l).expected (srcValid s e.src && e.health == .good)
    | none => zeroBlock

/-- Latch the blocks of every track of a lane, judged in state `view` (R52). -/
def latchTags (view : State) (l : LaneId) (s : State) : State :=
  modWriter l (fun w => { w with latched := Table.gen fun t => latchBlock view l t }) s

/-! ## Frame starts and departures -/

/-- The silent advance of track `t`'s destination for what its frame did not read (R50). -/
def completeTrack (l : LaneId) (t : TrackId) (s : State) : State :=
  silentAdvance
    ((s.lanes.look l).frameSamples - ((s.writers.look l).groups.look (groupOf t)).reads)
    (laneDest l t) s

/-- Complete the lane's 24 destinations for the frame that ends, and start the counts afresh (R50). -/
def completeFrame (l : LaneId) (s : State) : State :=
  modWriter l (fun w => { w with groups := Table.fill 8 ⟨0, 0⟩ })
    ((List.finRange 24).foldl (fun s t => completeTrack l t s) s)

/-- Crowding at a frame start in RUN: the condition ends when the frame that closes left no group
out (R47). -/
def Crowding.frameClosed : Crowding → Crowding
  | .none => .none
  | .thisFrame => .lastFrame
  | .lastFrame => .none

/-- A departure from RUN ends the CROWDED condition (R47, R57). -/
def Writer.departed (w : Writer) : Writer := { w with crowding := .none }

end Sys2Proof.Machine
end

