-- ==== Sys2Proof/Machine/TakeUnit.lean ====
section
/-! DEFINITION. The Take Unit: the application of a change to its entry (R81 to R86), the application
of a head batch (R122), the work of a take timer at a switch point (R120), the withdrawal of a port's
changes (R128) and the removal of everything under FLUSH (R129). Holds the meaning of TAKE. -/

namespace Sys2Proof.Machine

/-! ## The application of a change (R81 to R86) -/

/-- The code of the kind CODED (R175). -/
def kindCoded : Byte := 2

/-- The kind in force for a source and a tag reference, as a kind code (R81). -/
def kindInForce (s : State) (src : Src) (ref : TagRef) : Byte :=
  match ref with
  | .none => 0
  | .record n =>
    match (s.tags.look n).content with
    | some c => c.kind
    | none => 0
  | .pass =>
    match passBlock s src with
    | some b => b.look 0
    | none => 0

/-- The stored tag code and the counted reference after R84. A change that carries a tag reference
gives both. Without one the stored code stands and the counted reference takes the reference it names;
a code that an upset has made name no reference counts as NONE, and one that an upset has made name a
free record becomes NONE (log 11). -/
def newTagRef (s : State) (e : Entry) (c : Change) : Byte × TagRef :=
  match c.tag with
  | some r => (tagRefCode r, r)
  | none =>
    match tagRefOfCode e.tag with
    | none => (e.tag, .none)
    | some (.record n) =>
      if (s.tags.look n).content.isSome then (e.tag, .record n) else (tagCodeNone, .none)
    | some r => (e.tag, r)

/-- Whether a change gives the entry another source (R82). -/
def changesSource (e : Entry) (c : Change) : Bool := e.src != Src.ofNumber c.source.val

/-- The effective fade of a change on an entry (R82): CUT when the kind in force is CODED before or
after. -/
def effectiveFade (s : State) (e : Entry) (c : Change) : Nat :=
  if kindInForce s e.src e.tagUsed = kindCoded ∨
      kindInForce s (Src.ofNumber c.source.val) (newTagRef s e c).2 = kindCoded then 0
  else c.fade

/-- The fade part after R82: the fade in flight is dropped, and a change of source with an effective
fade begins one from the source the entry had. -/
def newFade (s : State) (e : Entry) (c : Change) : Option Fade :=
  if changesSource e c = true ∧ effectiveFade s e c ≠ 0 then
    some ⟨e.src, e.readIndex, effectiveFade s e c, 0⟩
  else none

/-- An entry after the application of a change (R82 to R86). -/
def appliedEntry (s : State) (c : Change) (e : Entry) : Entry :=
  let e1 := { e with
    source := BitVec.ofNat 16 c.source.val
    tag := (newTagRef s e c).1
    counted := (newTagRef s e c).2
    delay :=
      match c.delay with
      | some d => BitVec.ofNat 16 d
      | none => e.delay
    fade := newFade s e c
    health := .good }
  let e2 := if changesSource e c || c.delay.isSome then e1.aligned s else e1
  { e2 with code := e2.computedCode }

/-- The reference counts follow an entry's counted reference from `old` to `new` (R84). -/
def moveCount (old new : TagRef) (s : State) : State :=
  if old = new then s else countUp new (countDown old s)

/-- Apply one change to the entry of its destination (R82 to R86). -/
def applyChange (c : Change) (s : State) : State :=
  let e := s.entries.look c.dest
  moveCount e.counted (newTagRef s e c).2 (modEntry c.dest (appliedEntry s c) s)

/-- Apply changes in order; each ends when its application is complete (R122). -/
def applyChanges (cs : List Change) (s : State) : State :=
  cs.foldl (fun s c => endChange c (applyChange c s)) s

/-! ## The take timer (R120, R122) -/

/-- Take the head batch out of the queue, and load the timer from the next (R122, R127). -/
def TakeUnit.dropHead (t : TakeUnit) : TakeUnit := TakeUnit.reload { t with queue := t.queue.tail }

/-- Apply the head batch of a lane as one event (R122). -/
def applyHead (l : LaneId) (s : State) : State :=
  match (s.takes.look l).queue with
  | [] => s
  | b :: _ =>
    setNotice b.owner .applied (modTake l TakeUnit.dropHead (applyChanges b.changes s))

/-- The work of a take timer at a switch point (R120): held or IDLE nothing; above 0 it counts; at 0 it
applies the head batch, but for a head that a CANCEL loaded at this switch point in place of the one that
was to be applied: R123 has no batch applied here, where R121 has a head of delay 0 applied at the first
switch point after it became head (log 39). -/
def takeTimerWork (l : LaneId) (s : State) : State :=
  let t := s.takes.look l
  if t.freshHead then modTake l (fun t => { t with freshHead := false }) s
  else if t.held then s
  else
    match t.timer with
    | .idle => s
    | .counting 0 => applyHead l s
    | .counting (n + 1) => modTake l (fun t => { t with timer := .counting n }) s

/-- A frame opens: a switch point of the frame before it that had not fallen does not fall (log 35), so a
head that was to wait past it is applied at the first switch point that falls (R121, log 39). -/
def TakeUnit.frameOpened (t : TakeUnit) : TakeUnit := { t with freshHead := false }

/-- The switch point of a lane's frame in progress has come: one sixteenth of the period after the
frame start (R8). -/
def switchPointDue (s : State) (l : LaneId) : Bool :=
  awake s && (s.lanes.look l).switchPending &&
    decide ((s.lanes.look l).frameStartAt + (s.lanes.look l).frameSamples ≤ s.now)

/-- The head batch of a lane is to be applied at the switch point that has come (R122). -/
def takeDue (s : State) (l : LaneId) : Bool :=
  switchPointDue s l && (s.lanes.look l).takePending && !(s.takes.look l).held &&
    !(s.takes.look l).freshHead && decide ((s.takes.look l).timer = .counting 0)

/-- TAKE (R122): the application of the head batch, taken before the rest of its switch point; the
take timer's work of that switch point is then done. -/
def take (l : LaneId) (s : State) : State :=
  if takeDue s l then applyHead l (modLane l (fun n => { n with takePending := false }) s) else s

/-- The meaning of TAKE. -/
def execTake (l : LaneId) (s : State) : Host.Outcome State Fault Refusal := .next (take l s)

/-! ## Removals (R127, R128, R129) -/

/-- The changes of a list for a destination. -/
def changesFor (d : DestId) (cs : List Change) : List Change := cs.filter fun c => decide (c.dest = d)

/-- The changes of a list for every other destination, in their order. -/
def changesNotFor (d : DestId) (cs : List Change) : List Change :=
  cs.filter fun c => decide (c.dest ≠ d)

/-- A batch after the withdrawal of its owner's changes for a destination. -/
def Batch.without (c : CpId) (d : DestId) (b : Batch) : Batch :=
  if b.owner = c then { b with changes := changesNotFor d b.changes } else b

/-- The changes of port `c` for destination `d` on a lane: staged first, then queued from head to
tail (R128). -/
def TakeUnit.changesOf (c : CpId) (d : DestId) (t : TakeUnit) : List Change :=
  changesFor d (t.staging.look c) ++
    t.queue.flatMap fun b => if b.owner = c then changesFor d b.changes else []

/-- The withdrawal of port `c` for destination `d` leaves the head batch with no change. -/
def TakeUnit.headEmptied (c : CpId) (d : DestId) (t : TakeUnit) : Bool :=
  match t.queue with
  | [] => false
  | b :: _ => (b.without c d).changes.isEmpty

/-- A lane's take state after the withdrawal of port `c`'s changes for destination `d`: emptied batches
leave, and the timer is loaded afresh when the head left (R127, R128). -/
def TakeUnit.withdrawn (c : CpId) (d : DestId) (t : TakeUnit) : TakeUnit :=
  let t1 := { t with
    staging := t.staging.put c (changesNotFor d (t.staging.look c))
    queue := (t.queue.map (Batch.without c d)).filter fun b => !b.changes.isEmpty }
  if t.headEmptied c d then t1.reload else t1

/-- Withdraw every change of a port for a destination that left its hold (R101, R128). -/
def withdraw (c : CpId) (d : DestId) (s : State) : State :=
  let l := timingLane s d
  match (s.takes.look l).changesOf c d with
  | [] => s
  | gone => setNotice c .withdrawn (endChanges gone (modTake l (TakeUnit.withdrawn c d) s))

/-- A claim item leaves a port's hold: a destination is handed over for withdrawal, a lane control item
hands over nothing (R101). -/
def withdrawItem (c : CpId) (i : ItemId) (s : State) : State :=
  match itemDest i with
  | some d => withdraw c d s
  | none => s

/-- Every change of a lane, staged or queued. -/
def TakeUnit.allChanges (t : TakeUnit) : List Change :=
  t.staging.look 0 ++ t.staging.look 1 ++ t.staging.look 2 ++ t.queue.flatMap (·.changes)

/-- Whether a port owns a staged or a queued batch of a lane. -/
def TakeUnit.owns (t : TakeUnit) (c : CpId) : Bool :=
  !(t.staging.look c).isEmpty || t.queue.any fun b => decide (b.owner = c)

/-- A lane's take state with every batch removed; the closure counter and the PARK hold stay. -/
def TakeUnit.flushed (t : TakeUnit) : TakeUnit :=
  TakeUnit.reload { t with staging := Table.fill 3 [], queue := [] }

/-- Set a notice on each of the ports of a list. -/
def setNotices (cs : List CpId) (n : Notice) (s : State) : State :=
  cs.foldl (fun s c => setNotice c n s) s

/-- Remove every staged and every queued batch of a lane (R129). -/
def flush (l : LaneId) (s : State) : State :=
  let t := s.takes.look l
  setNotices ((List.finRange 3).filter t.owns) .cancelled
    (endChanges t.allChanges (modTake l TakeUnit.flushed s))

end Sys2Proof.Machine
end

