-- ==== Sys2Proof/Machine/ClaimUnit.lean ====
section
/-! DEFINITION. The Claim Unit's operations: giving up and taking claim items (R99, R100, R101), the
liveness of the control ports (R104 to R107) and its judgement against new intervals (R109). Holds the
meanings of PORT_LATE and PORT_LOST. -/

namespace Sys2Proof.Machine

/-! ## Claim items -/

/-- The items of a list that a port holds. -/
def heldItems (s : State) (c : CpId) (items : List ItemId) : List ItemId :=
  items.filter fun i => decide (s.holders.look i = some c)

/-- A port gives up one item: it becomes FREE and is handed over for withdrawal (R99, R101). -/
def freeItem (c : CpId) (i : ItemId) (s : State) : State := withdrawItem c i (setHolder i none s)

/-- A port gives up the items of a list that it holds, in the list's order (R99, R101, R107). -/
def freeItems (c : CpId) (items : List ItemId) (s : State) : State :=
  (heldItems s c items).foldl (fun s i => freeItem c i s) s

/-- The senior port takes one item, whoever holds it (R100). -/
def seizeItem (c : CpId) (i : ItemId) (s : State) : State :=
  match s.holders.look i with
  | none => setHolder i (some c) s
  | some h =>
    if h = c then s
    else withdrawItem h i (setNotice h .claimLost (setHolder i (some c) s))

/-! ## Liveness (R104 to R107) -/

/-- The watch timer of a port in ticks (R104). -/
def watchTime (s : State) (c : CpId) : Nat := s.now - (s.ports.look c).watchAt

/-- A port's watch timer has reached the late interval. -/
def pastLate (s : State) (c : CpId) : Bool := decide (s.lateMs * Config.tickMs ≤ watchTime s c)

/-- A port's watch timer has reached the lost interval. -/
def pastLost (s : State) (c : CpId) : Bool :=
  decide (s.lostSeconds * 1000 * Config.tickMs ≤ watchTime s c)

/-- A port becomes LATE (R106). -/
def becomeLate (c : CpId) (s : State) : State :=
  setFlag (.portLate c) (modPort c (fun p => { p with liveness := .late }) s)

/-- The records that a port authors become authorless (R107). -/
def dropAuthor (c : CpId) (s : State) : State :=
  { s with
    tags := Table.gen fun n =>
      let r := s.tags.look n
      { r with content := r.content.map fun t =>
          if t.author = some c then { t with author := none } else t } }

/-- A port becomes LOST, as one event (R107). -/
def becomeLost (c : CpId) (s : State) : State :=
  let all := List.finRange 264
  let s1 := freeItems c all (modPort c (fun p => { p with liveness := .lost }) s)
  let s2 := if (heldItems s c all).isEmpty then s1 else setNotice c .claimLost s1
  setFlag (.portLost c) (dropAuthor c s2)

/-- Liveness is evaluated outside start-up (R104): a LIVE port's watch timer has reached the late
interval. -/
def lateIntervalDue (s : State) (c : CpId) : Bool :=
  s.phase == .running && (s.ports.look c).liveness == .live && pastLate s c

/-- A SILENT or LATE port's watch timer has reached the lost interval. -/
def lostIntervalDue (s : State) (c : CpId) : Bool :=
  s.phase == .running &&
    ((s.ports.look c).liveness == .silent || (s.ports.look c).liveness == .late) && pastLost s c

/-- PORT_LATE (R106). -/
def portLate (c : CpId) (s : State) : State := if lateIntervalDue s c then becomeLate c s else s

/-- The meaning of PORT_LATE. -/
def execPortLate (c : CpId) (s : State) : Host.Outcome State Fault Refusal := .next (portLate c s)

/-- PORT_LOST (R107). -/
def portLost (c : CpId) (s : State) : State := if lostIntervalDue s c then becomeLost c s else s

/-- The meaning of PORT_LOST. -/
def execPortLost (c : CpId) (s : State) : Host.Outcome State Fault Refusal := .next (portLost c s)

/-- A port's liveness judged at once against the intervals in force (R109). -/
def judgeLiveness (c : CpId) (s : State) : State := portLost c (portLate c s)

/-- The block of a port is taken (R105): the port becomes LIVE and its watch timer restarts. -/
def refresh (c : CpId) (s : State) : State :=
  modPort c (fun p => { p with liveness := .live, watchAt := s.now }) s

end Sys2Proof.Machine
end

