-- ==== Sys2Proof/Machine/CommandUnit.lean ====
section
/-! DEFINITION. The Command Unit (spec/09, spec/12): the block check (R147, R175), the summary byte and
the response that chip select fixes (R145, R149, R173), the end of a write transaction (R146, R148,
R150), and the running of a command (R105, R147). Holds the meanings of SUMMARY_POLL, READ_RESPONSE,
BAD_BLOCK, OVERRUN, STARTING, UNDEFINED_COMMAND and CHIP_SELECT_FALL. -/

namespace Sys2Proof.Machine

/-! ## The block check (R147, R174, R175) -/

/-- The number of payload bytes that the fields of a command code take, from byte 3 on; none for a code
that names no command (R175). -/
def payloadLength (code : Byte) : Option Nat :=
  match code.toNat with
  | 0x01 => some 0 | 0x02 => some 0 | 0x03 => some 1 | 0x04 => some 2
  | 0x08 => some 3 | 0x09 => some 3 | 0x0A => some 3 | 0x0B => some 3 | 0x0C => some 3
  | 0x10 => some 1 | 0x11 => some 1 | 0x12 => some 1 | 0x13 => some 1
  | 0x14 => some 2 | 0x15 => some 2 | 0x16 => some 2 | 0x17 => some 2 | 0x18 => some 3
  | 0x20 => some 8 | 0x21 => some 2 | 0x22 => some 2 | 0x23 => some 3
  | 0x24 => some 1 | 0x25 => some 1 | 0x26 => some 1
  | 0x28 => some 2 | 0x29 => some 3 | 0x2A => some 2
  | 0x30 => some 1 | 0x31 => some 2 | 0x32 => some 1
  | 0x38 => some 27 | 0x39 => some 1 | 0x3A => some 1
  | 0x40 => some 0 | 0x41 => some 8 | 0x42 => some 1
  | 0x48 => some 0 | 0x49 => some 1 | 0x4A => some 1
  | _ => none

/-- Byte `i` of a list of bytes, zero for any byte that is not there. -/
def byteAt (bytes : List Byte) (i : Nat) : Byte := bytes.getD i 0

/-- Whether some reserved byte of a 40-byte block is not zero (R175): byte 2, and the payload bytes
outside the fields of the code's row; for a code that names no command only byte 2. -/
def reservedNonzero (bytes : List Byte) : Bool :=
  byteAt bytes 2 != 0 ||
    match payloadLength (byteAt bytes 0) with
    | some n => ((bytes.take 39).drop (3 + n)).any fun b => b != 0
    | none => false

/-- The case in which the block check fails, if it fails (R147), as R176 codes it: 1 bad length, 2 bad
checksum, 3 reserved bytes. -/
def blockFault (bytes : List Byte) : Option Byte :=
  if bytes.length ≠ 40 then some 1
  else if byteSum bytes % 256 ≠ 255 then some 2
  else if reservedNonzero bytes then some 3
  else none

/-! ## What chip select fixes (R145, R149, R173) -/

/-- The summary byte of a port (R173). -/
def summaryByte (s : State) (c : CpId) : Byte :=
  slotCode (s.ports.look c).slot ||| (if s.phase = .starting then 0x04 else 0) |||
    (if alertLine s c then 0x08 else 0)

/-- The response that a read fixes at the falling edge (R149, R176). -/
def readableResponse (q : Slot) : Response :=
  match q with
  | .empty => ⟨0, 0, .noCommand, false, []⟩
  | .executing code tag => ⟨code, tag, .pending, false, []⟩
  | .answered r => r

/-- Whether a slot holds a waiting response. -/
def Slot.isAnswered (q : Slot) : Bool :=
  match q with
  | .answered _ => true
  | _ => false

/-- What a falling edge of chip select fixes now (R145, R149). -/
def fixedNow (s : State) (c : CpId) : Transaction :=
  let q := (s.ports.look c).slot
  ⟨summaryByte s c, readableResponse q, q.isAnswered⟩

/-- What the falling edge of the transaction in progress fixed; where none has been recorded, the falling
edge is taken to fall now (log 19). -/
def fixed (s : State) (c : CpId) : Transaction :=
  ((s.ports.look c).transaction).getD (fixedNow s c)

/-- CHIP_SELECT_FALL (R145, R149). -/
def chipSelectFall (c : CpId) (s : State) : State :=
  if awake s then modPort c (fun p => { p with transaction := some (fixedNow s c) }) s else s

/-- The meaning of CHIP_SELECT_FALL. -/
def execChipSelectFall (c : CpId) (s : State) : Host.Outcome State Fault Refusal :=
  .next (chipSelectFall c s)

/-- A transaction ends: these bytes have been shifted out. -/
def endTransaction (c : CpId) (bytes : List Byte) (s : State) : State :=
  modPort c (fun p => { p with transaction := none, shifted := bytes }) s

/-- The kind that a transaction byte selects (R145, R173). -/
def transactionKind (b : Byte) : TransactionKind :=
  if b = 0x5C then .writeBlock else if b = 0xA3 then .readResponse else .none

/-- The kind of a transaction with these bytes: its first byte selects it; one that ends before that byte
is complete is of no kind (R145). -/
def kindOf (bytes : List Byte) : TransactionKind :=
  match bytes with
  | [] => .none
  | b :: _ => transactionKind b

/-- SUMMARY_POLL (R145): a transaction of no kind shifts out the summary byte, then a zero byte for each
byte that follows the transaction byte, and changes nothing else. A transaction byte that selects a kind is
no SUMMARY_POLL: the row has no work (log 18). -/
def summaryPoll (c : CpId) (bytes : List Byte) (s : State) : State :=
  if awake s && kindOf bytes == .none then
    endTransaction c ((fixed s c).summary :: List.replicate (bytes.length - 1) 0) s
  else s

/-- The meaning of SUMMARY_POLL. -/
def execSummaryPoll (c : CpId) (bytes : List Byte) (s : State) : Host.Outcome State Fault Refusal :=
  .next (summaryPoll c bytes s)

/-- A slot after a read transaction (R146): the reading of a waiting response, whole, empties it. -/
def Slot.afterRead (q : Slot) (t : Transaction) (clocked : Nat) : Slot :=
  if t.waiting = true ∧ 40 ≤ clocked ∧ q = .answered t.response then .empty else q

/-- READ_RESPONSE (R145, R146, R149). What is shifted out after the 40 bytes of the response is not given
and not recorded (log 40). -/
def readResponse (c : CpId) (clocked : Nat) (s : State) : State :=
  if awake s then
    let t := fixed s c
    modPort c (fun p => { p with slot := p.slot.afterRead t clocked })
      (endTransaction c (t.summary :: t.response.bytes.take clocked) s)
  else s

/-- The meaning of READ_RESPONSE. -/
def execReadResponse (c : CpId) (clocked : Nat) (s : State) : Host.Outcome State Fault Refusal :=
  .next (readResponse c clocked s)

/-! ## The end of a write transaction (R146, R147, R148, R150) -/

/-- Place a response in a port's slot. -/
def place (c : CpId) (r : Response) (s : State) : State :=
  modPort c (fun p => { p with slot := .answered r }) s

/-- Place the response of a command that completes: it carries OVERRUN if the mark is set, and the mark
is cleared (R148). -/
def placeCompleted (c : CpId) (code tag : Byte) (result : Result) (payload : List Byte) (s : State) :
    State :=
  modPort c (fun p => { p with
    slot := .answered ⟨code, tag, result, p.overrunMark, payload⟩
    overrunMark := false }) s

/-- The end of a write transaction of `n` block bytes, whose first two are `code` and `tag`: answered
STARTING during start-up (R150), discarded while the slot is EXECUTING (R148), and otherwise judged. The
bus is not served while the engine is unpowered or held in reset (log 21). -/
def writeEnds (c : CpId) (code tag : Byte) (n : Nat) (judge : State → State) (s : State) : State :=
  if awake s then
    let s1 := endTransaction c ((fixed s c).summary :: List.replicate n 0) s
    if s.phase = .starting then place c ⟨code, tag, .starting, false, []⟩ s1
    else
      match (s.ports.look c).slot with
      | .executing _ _ => modPort c (fun p => { p with overrunMark := true }) s1
      | _ => judge s1
  else s

/-- A block that fails its check (R147): answered BAD_BLOCK with the failing case, and BLOCK_ERR is
set. -/
def rejectBlock (c : CpId) (bytes : List Byte) (s : State) : State :=
  match blockFault bytes with
  | some k => setFlag (.blockErr c)
      (place c ⟨byteAt bytes 0, byteAt bytes 1, .badBlock, false, [k]⟩ s)
  | none => s

/-- BAD_BLOCK (R147). -/
def badBlock (c : CpId) (bytes : List Byte) (s : State) : State :=
  writeEnds c (byteAt bytes 0) (byteAt bytes 1) bytes.length (rejectBlock c bytes) s

/-- The meaning of BAD_BLOCK. -/
def execBadBlock (c : CpId) (bytes : List Byte) (s : State) : Host.Outcome State Fault Refusal :=
  .next (badBlock c bytes s)

/-- OVERRUN (R148): a block that ends while the slot is EXECUTING is discarded and the mark set; on a slot
that is not EXECUTING the row has no work (log 18). -/
def overrun (c : CpId) (bytes : List Byte) (s : State) : State :=
  writeEnds c (byteAt bytes 0) (byteAt bytes 1) bytes.length (fun s => s) s

/-- The meaning of OVERRUN. -/
def execOverrun (c : CpId) (bytes : List Byte) (s : State) : Host.Outcome State Fault Refusal :=
  .next (overrun c bytes s)

/-- STARTING (R150): a block that ends during start-up is answered STARTING, unchecked; outside start-up
the row has no work (log 18). -/
def starting (c : CpId) (bytes : List Byte) (s : State) : State :=
  writeEnds c (byteAt bytes 0) (byteAt bytes 1) bytes.length (fun s => s) s

/-- The meaning of STARTING. -/
def execStarting (c : CpId) (bytes : List Byte) (s : State) : Host.Outcome State Fault Refusal :=
  .next (starting c bytes s)

/-! ## The running of a command (R105, R146, R147) -/

/-- What a command answers when it completes: a result and the payload of its response. -/
abbrev Reply := Result × List Byte

/-- The effect of a command on the state, and its answer; none where it does not complete within its own
event (R146). -/
abbrev Effect := State → State × Option Reply

/-- A command that is refused changes nothing. -/
def refuse (r : Result) (s : State) : State × Option Reply := (s, some (r, []))

/-- A command answered OK with a payload and the state it leaves. -/
def answer (payload : List Byte) (s : State) : State × Option Reply := (s, some (.ok, payload))

/-- Run a taken command (R105, R146, R147): the port's liveness is refreshed and the slot EXECUTING, the
command runs, and where it completes its response is placed. -/
def runCommand (c : CpId) (code tag : Byte) (effect : Effect) (s : State) : State :=
  let r := effect (modPort c (fun p => { p with slot := .executing code tag }) (refresh c s))
  match r.2 with
  | some (result, payload) => placeCompleted c code tag result payload r.1
  | none => r.1

/-- A block that passes its check ends on a port and its command is taken (R147). -/
def command (c : CpId) (code tag : Byte) (effect : Effect) (s : State) : State :=
  writeEnds c code tag 40 (runCommand c code tag effect) s

/-- UNDEFINED_COMMAND (R147): taken, it refreshes liveness and is refused with BAD_ARG. -/
def execUndefinedCommand (c : CpId) (code tag : Byte) (s : State) : Host.Outcome State Fault Refusal :=
  .next (command c code tag (refuse .badArg) s)

end Sys2Proof.Machine
end

