-- ==== Sys2Proof/Decode.lean ====
section
/-! DEFINITION. From bits and bytes to commands. The command table gives no row any bits, so no word of
it spells a command; a block that a controller writes on a control port spells one by its bytes (R147,
R174, R175). -/

namespace Sys2Proof

open Machine

/-- No row of the command table has bits, so no word spells a command. -/
def decodeTableWord (_nbits _w : Nat) : Option Instr := none

/-- The two-byte field at byte `i` of a block. -/
def fieldAt (bytes : List Byte) (i : Nat) : BitVec 16 := word16 (byteAt bytes i) (byteAt bytes (i + 1))

/-- The flag selection of CLEAR FAULTS: byte 3 + k of the block is bits 8k+7..8k (R175). -/
def selectionOf (bytes : List Byte) : BitVec 64 :=
  byteAt bytes 10 ++ byteAt bytes 9 ++ byteAt bytes 8 ++ byteAt bytes 7 ++ byteAt bytes 6 ++
    byteAt bytes 5 ++ byteAt bytes 4 ++ byteAt bytes 3

/-- The command that a block which passes its check spells (R174, R175). The straps are those that a
RESTART FULL would sample (R171). -/
def commandOf (c : CpId) (straps : BitVec 2) (bytes : List Byte) : Instr :=
  let b := byteAt bytes
  let tag := b 1
  match (b 0).toNat with
  | 0x01 => .keepalive c tag
  | 0x02 => .readStatus c tag
  | 0x03 => .clearNotices c tag (b 3)
  | 0x04 => .setNoticeMask c tag (b 3) (b 4)
  | 0x08 => .claim c tag (fieldAt bytes 3) (b 5)
  | 0x09 => .release c tag (fieldAt bytes 3) (b 5)
  | 0x0A => .seize c tag (fieldAt bytes 3) (b 5)
  | 0x0B => .readClaims c tag (fieldAt bytes 3) (b 5)
  | 0x0C => .setWatch c tag (fieldAt bytes 3) (b 5)
  | 0x10 => .laneEnable c tag (b 3)
  | 0x11 => .laneDisable c tag (b 3)
  | 0x12 => .lanePark c tag (b 3)
  | 0x13 => .laneResume c tag (b 3)
  | 0x14 => .setEmit c tag (b 3) (b 4)
  | 0x15 => .setStrip c tag (b 3) (b 4)
  | 0x16 => .setParkMode c tag (b 3) (b 4)
  | 0x17 => .setCoastLimit c tag (b 3) (b 4)
  | 0x18 => .readLane c tag (b 3) (b 4) (b 5)
  | 0x20 => .stage c tag (fieldAt bytes 3) (fieldAt bytes 5) (b 7) (b 8) (fieldAt bytes 9)
  | 0x21 => .unstage c tag (fieldAt bytes 3)
  | 0x22 => .close c tag (b 3) (b 4)
  | 0x23 => .cancel c tag (b 3) (b 4) (b 5)
  | 0x24 => .hold c tag (b 3)
  | 0x25 => .run c tag (b 3)
  | 0x26 => .readQueue c tag (b 3)
  | 0x28 => .readEntry c tag (fieldAt bytes 3)
  | 0x29 => .nudge c tag (fieldAt bytes 3) (b 5)
  | 0x2A => .checkTest c tag (fieldAt bytes 3)
  | 0x30 => .readPort c tag (b 3)
  | 0x31 => .setPortRef c tag (b 3) (b 4)
  | 0x32 => .setTone c tag (b 3)
  | 0x38 => .writeTag c tag (b 3) (b 4) (b 5) (Table.gen fun i => b (6 + i.val))
      (Table.gen fun i => b (22 + i.val))
  | 0x39 => .freeTag c tag (b 3)
  | 0x3A => .readTag c tag (b 3)
  | 0x40 => .readFaults c tag
  | 0x41 => .clearFaults c tag (selectionOf bytes)
  | 0x42 => .setLineMask c tag (b 3)
  | 0x48 => .saveScene c tag
  | 0x49 => .setGuard c tag (b 3)
  | 0x4A => if b 3 = 1 then .restartFull c tag straps else .restartRetain c tag (b 3)
  | _ => .undefinedCommand c (b 0) tag

/-- The command that a write transaction of these block bytes is, on a slot that is not EXECUTING and
outside start-up (R147): BAD_BLOCK where the block fails its check. -/
def decodeBlock (c : CpId) (straps : BitVec 2) (bytes : List Byte) : Instr :=
  if (blockFault bytes).isSome then .badBlock c bytes else commandOf c straps bytes

/-- The command that a transaction with these bytes is, by its transaction byte (R145, R173), on a slot that
is not EXECUTING and outside start-up. A chip select that rises before the transaction byte is complete is a
transaction of no kind. -/
def decodeTransaction (c : CpId) (straps : BitVec 2) (bytes : List Byte) : Instr :=
  match bytes with
  | [] => .summaryPoll c []
  | b :: rest =>
    match transactionKind b with
    | .writeBlock => decodeBlock c straps rest
    | .readResponse => .readResponse c rest.length
    | .none => .summaryPoll c (b :: rest)

end Sys2Proof
end

