-- ==== Sys2Proof/Machine/ClaimCommands.lean ====
section
/-! DEFINITION. The claim commands: CLAIM (R98), RELEASE (R99), SEIZE (R100), READ CLAIMS (R103) and SET
WATCH (R109). -/

namespace Sys2Proof.Machine

/-- Whether the caller is the senior port (R97). -/
def isSenior (s : State) (c : CpId) : Bool := decide (s.senior = some c)

/-- The lowest-numbered item of a list that is held by a port other than the caller, with its holder
(R98). -/
def heldElsewhere (s : State) (c : CpId) (items : List ItemId) : Option (ItemId × CpId) :=
  items.findSome? fun i =>
    match s.holders.look i with
    | some h => if h = c then none else some (i, h)
    | none => none

/-- The FREE items of a list. -/
def freeOf (s : State) (items : List ItemId) : List ItemId :=
  items.filter fun i => decide (s.holders.look i = none)

/-- Make the caller the holder of items (R98). -/
def takeItems (c : CpId) (items : List ItemId) (s : State) : State :=
  items.foldl (fun s i => setHolder i (some c) s) s

/-- CLAIM (R98): all or nothing. -/
def effectClaim (c : CpId) (first : BitVec 16) (count : Byte) : Effect := fun s =>
  let items := rangeItems first count
  if !rangeOk 24 first count then refuse .badArg s
  else
    match heldElsewhere s c items with
    | some (i, h) => (s, some (.heldElsewhere, numBytes i.val ++ [cpCode (some h)]))
    | none =>
      let free := freeOf s items
      answer [BitVec.ofNat 8 free.length] (takeItems c free s)

/-- The meaning of CLAIM (R98). -/
def execClaim (c : CpId) (tag : Byte) (first : BitVec 16) (count : Byte) (s : State) :
    Host.Outcome State Fault Refusal :=
  .next (command c 0x08 tag (effectClaim c first count) s)

/-- RELEASE (R99): the items that the caller holds become FREE, in item order. -/
def effectRelease (c : CpId) (first : BitVec 16) (count : Byte) : Effect := fun s =>
  let items := rangeItems first count
  if !rangeOk 24 first count then refuse .badArg s
  else answer [BitVec.ofNat 8 (heldItems s c items).length] (freeItems c items s)

/-- The meaning of RELEASE (R99). -/
def execRelease (c : CpId) (tag : Byte) (first : BitVec 16) (count : Byte) (s : State) :
    Host.Outcome State Fault Refusal :=
  .next (command c 0x09 tag (effectRelease c first count) s)

/-- The items of a list that ports other than the caller hold. -/
def othersOf (s : State) (c : CpId) (items : List ItemId) : List ItemId :=
  items.filter fun i => decide (s.holders.look i ≠ none) && decide (s.holders.look i ≠ some c)

/-- SEIZE (R100): every item of the range passes to the senior port, in item order. -/
def effectSeize (c : CpId) (first : BitVec 16) (count : Byte) : Effect := fun s =>
  let items := rangeItems first count
  if !rangeOk 24 first count then refuse .badArg s
  else if !isSenior s c then refuse .notSenior s
  else
    answer [BitVec.ofNat 8 (othersOf s c items).length, BitVec.ofNat 8 (freeOf s items).length]
      (items.foldl (fun s i => seizeItem c i s) s)

/-- The meaning of SEIZE (R100). -/
def execSeize (c : CpId) (tag : Byte) (first : BitVec 16) (count : Byte) (s : State) :
    Host.Outcome State Fault Refusal :=
  .next (command c 0x0A tag (effectSeize c first count) s)

/-- READ CLAIMS (R103). -/
def effectReadClaims (first : BitVec 16) (count : Byte) : Effect := fun s =>
  if !rangeOk 32 first count then refuse .badArg s
  else answer (bytesOf16 first ++ [count] ++
    (rangeItems first count).map fun i => cpCode (s.holders.look i)) s

/-- The meaning of READ_CLAIMS (R103). -/
def execReadClaims (c : CpId) (tag : Byte) (first : BitVec 16) (count : Byte) (s : State) :
    Host.Outcome State Fault Refusal :=
  .next (command c 0x0B tag (effectReadClaims first count) s)

/-- Whether two intervals are in range (R109): late 100..5000 ms in steps of 100, lost 1..60 s and
greater than the late interval. -/
def watchOk (late lost : Nat) : Bool :=
  decide (100 ≤ late) && decide (late ≤ 5000) && decide (late % 100 = 0) &&
    decide (1 ≤ lost) && decide (lost ≤ 60) && decide (late < lost * 1000)

/-- SET WATCH (R109): both intervals are replaced and every port is judged against them. -/
def effectSetWatch (c : CpId) (late : BitVec 16) (lost : Byte) : Effect := fun s =>
  if !watchOk late.toNat lost.toNat then refuse .badArg s
  else if !isSenior s c then refuse .notSenior s
  else
    answer [] ((List.finRange 3).foldl (fun s k => judgeLiveness k s)
      { s with lateMs := late.toNat, lostSeconds := lost.toNat })

/-- The meaning of SET_WATCH (R109). -/
def execSetWatch (c : CpId) (tag : Byte) (late : BitVec 16) (lost : Byte) (s : State) :
    Host.Outcome State Fault Refusal :=
  .next (command c 0x0C tag (effectSetWatch c late lost) s)

end Sys2Proof.Machine
end

