-- ==== Sys2Proof/Machine/AudioCommands.lean ====
section
/-! DEFINITION. The commands about the serial audio ports and the tone: READ PORT (R67), SET PORT REF
(R66) and SET TONE (R61). -/

namespace Sys2Proof.Machine

/-- The payload of READ PORT (R67, R177). -/
def portPayload (s : State) (p : SapId) : List Byte :=
  let q := s.saps.look p
  [boolByte (!q.present), BitVec.ofNat 8 q.regain, BitVec.ofNat 8 q.refLane.val] ++
    numBytes (s.writeIndex.look (sapRing p 0)).toNat ++ [BitVec.ofInt 8 s.toneLevel]

/-- READ PORT (R67). -/
def effectReadPort (port : Byte) : Effect := fun s =>
  match sapField port with
  | none => refuse .badArg s
  | some p => answer (portPayload s p) s

/-- The meaning of READ_PORT (R67). -/
def execReadPort (c : CpId) (tag port : Byte) (s : State) : Host.Outcome State Fault Refusal :=
  .next (command c 0x30 tag (effectReadPort port) s)

/-- Whether a change is for one of a port's 16 destinations. -/
def forPort (p : SapId) (x : Change) : Bool := decide (sapOf x.dest = some p)

/-- Whether some staging batch or take queue holds a change for one of a port's destinations (R66). -/
def portQueued (s : State) (p : SapId) : Bool :=
  (List.finRange 8).any fun l => (s.takes.look l).allChanges.any (forPort p)

/-- SET PORT REF (R66). -/
def effectSetPortRef (c : CpId) (port lane : Byte) : Effect := fun s =>
  match sapField port, laneField lane with
  | some p, some l =>
    if !isSenior s c then refuse .notSenior s
    else if portQueued s p then refuse .queued s
    else answer [] (modSap p (fun q => { q with refLane := l }) s)
  | _, _ => refuse .badArg s

/-- The meaning of SET_PORT_REF (R66). -/
def execSetPortRef (c : CpId) (tag port lane : Byte) (s : State) : Host.Outcome State Fault Refusal :=
  .next (command c 0x31 tag (effectSetPortRef c port lane) s)

/-- A tone level in range (R61): −30..−10 dBFS. -/
def toneOk (a : Int) : Bool := decide (-30 ≤ a) && decide (a ≤ -10)

/-- SET TONE (R61). -/
def effectSetTone (c : CpId) (level : Byte) : Effect := fun s =>
  if !toneOk level.toInt then refuse .badArg s
  else if !isSenior s c then refuse .notSenior s
  else answer [] { s with toneLevel := level.toInt }

/-- The meaning of SET_TONE (R61). -/
def execSetTone (c : CpId) (tag level : Byte) (s : State) : Host.Outcome State Fault Refusal :=
  .next (command c 0x32 tag (effectSetTone c level) s)

end Sys2Proof.Machine
end

