-- ==== Sys2Proof/Machine/LaneUnit.lean ====
section
/-! DEFINITION. The Lane Timing Unit (spec/01): the lock detector (R4, R5), the changes of lane state
(R9 to R18), the frame timer (R6, R7), the work of a frame start (R8, R31, R33, R50, R52) and the times
at which a lane's timed events are due. -/

namespace Sys2Proof.Machine

/-! ## The lock detector (R4, R5) -/

/-- Whether an input frame of `len` ticks and `lines` cell lines is a complete frame of a class: its
length lies within one sixteenth of the period of that period (R4). -/
def frameMatches (c : FormatClass) (len lines : Nat) : Bool :=
  decide (lines = c.cellLines) && decide (15 * c.samples ≤ len) && decide (len ≤ 17 * c.samples)

/-- The class of a closing input frame, or none for an incomplete one. The lengths of FA24 and FA25
overlap: a length that is exactly the period of one of them is of that class, another in the overlap is
judged by a free value (log 6). -/
def frameClass (len lines : Nat) : Option FormatClass :=
  if frameMatches .fa24 len lines && frameMatches .fa25 len lines then
    if len = Config.framePeriod 2000 then some .fa24
    else if len = Config.framePeriod 1920 then some .fa25
    else if Config.overlapIsFa24 len then some .fa24 else some .fa25
  else
    [FormatClass.fa24, .fa25, .fa30, .fb50, .fb60, .fc25].find? fun c => frameMatches c len lines

/-- The detector's judgement of a closing input frame: the detector after it and whether lock was
lost (R4, R5). A frame that is a complete frame of the class the detector holds is of that class. -/
def Detector.judge (d : Detector) (len lines : Nat) : Detector × Bool :=
  match d with
  | .unlocked =>
    match frameClass len lines with
    | some c => (.candidate c, false)
    | none => (.unlocked, false)
  | .candidate c' =>
    if frameMatches c' len lines then (.locked c', false)
    else
      match frameClass len lines with
      | some c => (.candidate c, false)
      | none => (.unlocked, false)
  | .locked c' =>
    if frameMatches c' len lines then (.locked c', false)
    else
      match frameClass len lines with
      | some c => (.candidate c, true)
      | none => (.unlocked, true)

/-- The judgement at an input frame start at time `now`; the first one since the reset closes no
frame. -/
def Lane.judged (n : Lane) (now : Nat) : Detector × Bool :=
  match n.inputAt with
  | none => (n.detector, false)
  | some t => n.detector.judge (now - t) n.inputLines

/-- Whether the detector is LOCKED with the expected class. -/
def Lane.lockedExpected (n : Lane) : Bool :=
  match n.detector with
  | .locked c => decide (n.expected = some c)
  | _ => false

/-! ## Changes of lane state -/

/-- The effects of a departure from RUN on the reader and the writer (R12, R34, R47). -/
def departRun (l : LaneId) (s : State) : State :=
  modWriter l Writer.departed (modReader l Reader.departed s)

/-- An entry to PARKED (R14): the cause, the mark, the count, the PARK hold and the entry effect of the
park mode, with the LANE notice (R19). -/
def enterParked (l : LaneId) (cause : ParkCause) (s : State) : State :=
  let s1 := modTake l (fun t => { t with holdPark := true })
    (modLane l (fun n => { n with
      state := .parked
      parkCause := some cause
      relockSeen := false
      resumeArmed := false
      coastCount := 0 }) s)
  let s2 := if (s.lanes.look l).parkMode = .flush then flush l s1 else s1
  laneNotice l s2

/-- What a departure from PARKED removes (R16). -/
def leaveParked (l : LaneId) (s : State) : State :=
  modTake l (fun t => { t with holdPark := false })
    (modLane l (fun n => { n with
      relockSeen := false
      resumeArmed := false
      parkCause := none }) s)

/-- An entry to RUN with class `c`, from SEEK, COAST or PARKED (R10, R13, R15). -/
def enterRun (l : LaneId) (c : FormatClass) (s : State) : State :=
  let s1 := if (s.lanes.look l).state = .parked then leaveParked l s else s
  laneNotice l (modLane l (fun n => { n with state := .run, expected := some c }) s1)

/-- A loss of lock found in RUN (R11): COAST with count 0, or PARKED when the coast limit is 0; LOCK_LOST
is set. -/
def loseLock (l : LaneId) (s : State) : State :=
  let s1 := setFlag (.lockLost l) (departRun l s)
  if (s.lanes.look l).coastLimit = 0 then enterParked l .coastExpiry s1
  else laneNotice l (modLane l (fun n => { n with state := .coast, coastCount := 0 }) s1)

/-- A lock with a class other than the expected one, found in SEEK or COAST (R10, R13). -/
def formatChange (l : LaneId) (s : State) : State :=
  enterParked l .format (setFlag (.formatChanged l) s)

/-! ## The frame timer (R6, R7, R30) -/

/-- The S of the period at which the timer runs the next frame: the expected class's, or 40 ms. -/
def Lane.nextSamples (n : Lane) : Nat :=
  match n.expected with
  | some c => c.samples
  | none => 1920

/-- The timer opens a frame at time `now`; its switch point is still to fall. -/
def Lane.opened (n : Lane) (now : Nat) : Lane :=
  { n with
    frameStartAt := now
    phaseAt := now
    frameSamples := n.nextSamples
    switchPending := true
    takePending := true }

/-- R7: an input frame start in RUN opens a frame unless it comes less than half a period after the last
frame start. In the first frame of RUN, where that frame runs at a longer period than the locked class (a 40 ms
free run and FB60), the second input frame start too can come within its half period and opens no frame, though
R57 has the frame run to the next input frame start: the model follows R7 (log 45). -/
def opensFrame (s : State) (l : LaneId) : Bool :=
  decide ((s.lanes.look l).frameStartAt + 8 * (s.lanes.look l).frameSamples ≤ s.now)

/-! ## The work of a frame start (R8) -/

/-- The work that ends a frame: the reader's accounting, then the silent advances of the lane's
destinations (R31, R50). -/
def closeFrame (l : LaneId) (s : State) : State := completeFrame l (settleFrame l s)

/-- The evaluation of the presence map in RUN, and the end of every tag assembly (R33, R36). -/
def evaluateFrame (l : LaneId) (s : State) : State :=
  modReader l (fun r =>
    (if (s.lanes.look l).state = .run then r.evaluate else r).abandonTags) s

/-- The crowding that a frame start in RUN leaves (R47). -/
def closeCrowding (l : LaneId) (s : State) : State :=
  if (s.lanes.look l).state = .run then
    modWriter l (fun w => { w with crowding := w.crowding.frameClosed }) s
  else s

/-- The work of the reader, the writer and the Patch Engine at a frame start: the frame that ends is
settled, presence evaluated and the tag blocks latched. Whether the latch is judged before or after the
evaluation is a free value (R52, log 9). -/
def frameWork (l : LaneId) (s : State) : State :=
  let s1 := closeFrame l s
  let s2 := evaluateFrame l s1
  closeCrowding l (latchTags (if Config.latchFirst s.now then s1 else s2) l s2)

/-- Coast counting (R13): the count rises by 1, and at the limit the lane parks. -/
def coastWork (l : LaneId) (s : State) : State :=
  let n := s.lanes.look l
  if n.coastLimit ≤ n.coastCount + 1 then enterParked l .coastExpiry s
  else modLane l (fun n => { n with coastCount := n.coastCount + 1 }) s

/-- The look at the detector at a frame start in PARKED (R15): a relock event sets the mark, and in HOLD
or FLUSH the frame start after it enters RUN; otherwise the mark is cleared. The resume needs HOLD or
FLUSH at both frame starts (log 14). -/
def parkedWork (l : LaneId) (s : State) : State :=
  let n := s.lanes.look l
  match n.detector, n.lockedExpected with
  | .locked c, true =>
    if n.resumeArmed && decide (n.parkMode ≠ .latch) then enterRun l c s
    else modLane l (fun n => { n with
      relockSeen := true
      resumeArmed := decide (n.parkMode ≠ .latch) }) s
  | _, _ => modLane l (fun n => { n with relockSeen := false, resumeArmed := false }) s

/-- The Lane Timing Unit's own work at a frame start (R8). -/
def laneWork (l : LaneId) (s : State) : State :=
  match (s.lanes.look l).state with
  | .coast => coastWork l s
  | .parked => parkedWork l s
  | _ => s

/-- A frame start of a lane, whole (R8): the work that the frame's end and beginning bring, and the
timer opens the next frame. -/
def frameStart (l : LaneId) (s : State) : State :=
  let s1 := laneWork l (frameWork l s)
  modTake l TakeUnit.frameOpened (modLane l (fun n => n.opened s.now) s1)

/-! ## When timed events are due -/

/-- The timer's own frame start is due: outside RUN, one period after the phase of the frame in
progress (R6, log 15). A lane that left RUN by LANE PARK or LANE DISABLE when its frame had already outrun
its period, its input frame start being late by at most one eighth (R5), has its frame start due at once, and
the phase runs on from there: R6 does not say when that frame ends (log 43). -/
def frameDue (s : State) (l : LaneId) : Bool :=
  awake s && decide ((s.lanes.look l).state ≠ .run) &&
    decide ((s.lanes.look l).phaseAt + Config.framePeriod (s.lanes.look l).frameSamples ≤ s.now)

/-- The coast expiry of a lane is due at the frame start that has come (R13). -/
def expiryDue (s : State) (l : LaneId) : Bool :=
  frameDue s l && decide ((s.lanes.look l).state = .coast) &&
    decide ((s.lanes.look l).coastLimit ≤ (s.lanes.look l).coastCount + 1)

/-- The time since the last input frame start passes nine eighths of the period of class `c`. -/
def Lane.overdue (n : Lane) (now : Nat) (c : FormatClass) : Bool :=
  match n.inputAt with
  | some t => decide (t + 18 * c.samples < now)
  | none => false

/-- The predicted input frame start of a lane is late (R5). -/
def lateDue (s : State) (l : LaneId) : Bool :=
  awake s &&
    match (s.lanes.look l).detector with
    | .locked c => (s.lanes.look l).overdue s.now c
    | _ => false

/-- The candidate of a lane lapses (R4). -/
def lapseDue (s : State) (l : LaneId) : Bool :=
  awake s &&
    match (s.lanes.look l).detector with
    | .candidate c => (s.lanes.look l).overdue s.now c
    | _ => false

end Sys2Proof.Machine
end

