-- ==== Sys2Proof/Machine/AudioEvents.lean ====
section
/-! DEFINITION. The serial audio ports (R62 to R65): the work of a word-clock frame start and of an
internal timer period, the clock loss and the regain. Holds the meanings of WORD_CLOCK_FRAME_START,
PORT_CLOCK_LOST, INTERNAL_TIMER_PERIOD and PORT_REGAIN. -/

namespace Sys2Proof.Machine

/-! ## The two pieces of work (R63, R64) -/

/-- Write one sample into each of a port's 16 sources, in slot order (R63). -/
def writeSlots (p : SapId) (xs : Table Sample 16) (s : State) : State :=
  (List.finRange 16).foldl (fun s k => writeSample (sapRing p k) (xs.look k) s) s

/-- The destinations of a port in slot order. -/
def portDests (p : SapId) : List DestId := (List.finRange 16).map fun k => sapDest p k

/-- The samples that a port sends. -/
def slotTable (xs : List Sample) : Table Sample 16 := Table.gen fun k => xs.getD k.val 0

/-- Read the 16 destinations of a port once each, in slot order, and send the samples while the port is
PRESENT; while LOST the samples are discarded and the slots carry zeros (R63, R64). -/
def readSlots (p : SapId) (s : State) : State :=
  let r := readDests (portDests p) s
  modSap p (fun q => { q with
    output := if q.present then slotTable r.1 else Table.fill 16 0 }) r.2

/-- The two pieces of work of a port, in the given order; `xs` is none where nothing is written. -/
def portWork (p : SapId) (xs : Option (Table Sample 16)) (readFirst : Bool) (s : State) : State :=
  let write (s : State) : State :=
    match xs with
    | some xs => writeSlots p xs s
    | none => s
  if readFirst then write (readSlots p s) else readSlots p (write s)

/-! ## Word-clock frame starts (R63, R65) -/

/-- The regain count after a word-clock frame start of a LOST port: raised when it follows the previous
one, seen since the loss, by seven eighths to nine eighths of a word period, else 1 (R65). -/
def Sap.regainAfter (q : Sap) (now : Nat) : Nat :=
  if q.regain ≠ 0 ∧ q.clockAt + 14 ≤ now ∧ now ≤ q.clockAt + 18 then q.regain + 1 else 1

/-- The regain frame start (R65): the port becomes PRESENT, and R63 takes the frame start as the first
one after the port becomes PRESENT. -/
def regainPort (p : SapId) (readFirst : Bool) (s : State) : State :=
  portWork p none readFirst
    (modSap p (fun q => { q with
      present := true, regain := 0, frameOpen := true, clockAt := s.now }) s)

/-- A word-clock frame start of a LOST port (R65). -/
def lostFrameStart (p : SapId) (readFirst : Bool) (s : State) : State :=
  let n := (s.saps.look p).regainAfter s.now
  if 8 ≤ n then regainPort p readFirst s
  else modSap p (fun q => { q with regain := n, clockAt := s.now }) s

/-- A word-clock frame start of a PRESENT port (R63): the first one since the port became PRESENT opens a
frame and writes nothing. -/
def presentFrameStart (p : SapId) (received : Table Sample 16) (readFirst : Bool) (s : State) : State :=
  portWork p (if (s.saps.look p).frameOpen then some received else none) readFirst
    (modSap p (fun q => { q with frameOpen := true, clockAt := s.now }) s)

/-- WORD_CLOCK_FRAME_START (R63, R65). -/
def wordClockFrameStart (p : SapId) (received : Table Sample 16) (readFirst : Bool) (s : State) :
    State :=
  if awake s then
    if (s.saps.look p).present then presentFrameStart p received readFirst s
    else lostFrameStart p readFirst s
  else s

/-- The meaning of WORD_CLOCK_FRAME_START. -/
def execWordClockFrameStart (p : SapId) (received : Table Sample 16) (readFirst : Bool) (s : State) :
    Host.Outcome State Fault Refusal :=
  .next (wordClockFrameStart p received readFirst s)

/-- PORT_REGAIN (R65): a word-clock frame start of a LOST port that brings the regain count to 8; at any
other time it is none (log 13). It reads before it writes or after alike, for it writes nothing. -/
def portRegain (p : SapId) (s : State) : State :=
  if awake s && !(s.saps.look p).present &&
      decide (8 ≤ (s.saps.look p).regainAfter s.now) then
    regainPort p false s
  else s

/-- The meaning of PORT_REGAIN. -/
def execPortRegain (p : SapId) (s : State) : Host.Outcome State Fault Refusal :=
  .next (portRegain p s)

/-! ## Clock loss and internal timer (R64) -/

/-- Four word periods have passed since the last word-clock frame start of a PRESENT port, or since the
reset (R64). -/
def clockLossDue (s : State) (p : SapId) : Bool :=
  awake s && (s.saps.look p).present &&
    decide ((s.saps.look p).clockAt + Config.clockLoss ≤ s.now)

/-- PORT_CLOCK_LOST (R64): the port becomes LOST, the frame in progress is abandoned, and the internal
timer's first period falls at this moment. -/
def portClockLost (p : SapId) (s : State) : State :=
  if clockLossDue s p then
    setFlag (.portClockLost p)
      (modSap p (fun q => { q with
        present := false
        regain := 0
        frameOpen := false
        timerAt := q.clockAt + Config.clockLoss
        output := Table.fill 16 0 }) s)
  else s

/-- The meaning of PORT_CLOCK_LOST. -/
def execPortClockLost (p : SapId) (s : State) : Host.Outcome State Fault Refusal :=
  .next (portClockLost p s)

/-- A period of a LOST port's internal timer is due (R64). -/
def timerPeriodDue (s : State) (p : SapId) : Bool :=
  awake s && !(s.saps.look p).present && decide ((s.saps.look p).timerAt ≤ s.now)

/-- INTERNAL_TIMER_PERIOD (R64): one zero sample into each source, one read of each destination. -/
def internalTimerPeriod (p : SapId) (readFirst : Bool) (s : State) : State :=
  if timerPeriodDue s p then
    portWork p (some (Table.fill 16 0)) readFirst
      (modSap p (fun q => { q with timerAt := q.timerAt + Config.wordPeriod }) s)
  else s

/-- The meaning of INTERNAL_TIMER_PERIOD. -/
def execInternalTimerPeriod (p : SapId) (readFirst : Bool) (s : State) :
    Host.Outcome State Fault Refusal :=
  .next (internalTimerPeriod p readFirst s)

end Sys2Proof.Machine
end

