-- ==== Sys2Proof/Machine/EntryCommands.lean ====
section
/-! DEFINITION. The commands about a patch entry: READ ENTRY (R80), NUDGE (R75) and CHECK TEST
(R91). -/

namespace Sys2Proof.Machine

/-! ## READ ENTRY (R80) -/

/-- A distance in two bytes: FFFFh for S256 and S257 (R177). -/
def distanceBytes (d : Option Nat) : List Byte :=
  match d with
  | some n => numBytes n
  | none => [0xFF, 0xFF]

/-- Bytes 12..21 of READ ENTRY (R177): the fade, zeros while STEADY. -/
def fadeBytes (s : State) (f : Option Fade) : List Byte :=
  match f with
  | none => List.replicate 10 0
  | some f =>
    [1] ++ numBytes f.prev.number ++ numBytes f.prevIndex.toNat ++
      distanceBytes (distance s f.prev f.prevIndex) ++ [fadeCode f.length] ++ numBytes f.pos

/-- Bytes 22..23 of READ ENTRY (R177): the pending nudge, its amount a signed byte. -/
def nudgeBytes (n : Option Int) : List Byte :=
  match n with
  | none => [0, 0]
  | some a => [1, BitVec.ofInt 8 a]

/-- The payload of READ ENTRY (R80, R177). A field that an upset has left out of range is shown as it is
stored (log 12), and so is a read index that an upset source leaves outside 0..47 (log 37). -/
def entryPayload (s : State) (d : DestId) : List Byte :=
  let e := s.entries.look d
  bytesOf16 e.source ++ [e.tag] ++ bytesOf16 e.delay ++ numBytes e.readIndex.toNat ++
    distanceBytes (distance s e.src e.readIndex) ++ fadeBytes s e.fade ++ nudgeBytes e.nudge ++
    [boolByte (e.health == .suspect), boolByte (!e.matches), cpCode (s.holders.look (destItem d))]

/-- READ ENTRY (R80). -/
def effectReadEntry (dest : BitVec 16) : Effect := fun s =>
  match destField dest with
  | none => refuse .badArg s
  | some d => answer (entryPayload s d) s

/-- The meaning of READ_ENTRY (R80). -/
def execReadEntry (c : CpId) (tag : Byte) (dest : BitVec 16) (s : State) :
    Host.Outcome State Fault Refusal :=
  .next (command c 0x28 tag (effectReadEntry dest) s)

/-! ## NUDGE (R75) -/

/-- The amount of a nudge (R75): −15..+16 samples, not 0. -/
def nudgeOk (a : Int) : Bool := decide (-15 ≤ a) && decide (a ≤ 16) && decide (a ≠ 0)

/-- NUDGE (R75). -/
def effectNudge (c : CpId) (dest : BitVec 16) (amount : Byte) : Effect := fun s =>
  match destField dest with
  | none => refuse .badArg s
  | some d =>
    if !nudgeOk amount.toInt then refuse .badArg s
    else if s.holders.look (destItem d) ≠ some c then refuse .notOwner s
    else if (s.entries.look d).nudge.isSome then refuse .again s
    else answer [] (modEntry d (fun e => { e with nudge := some amount.toInt }) s)

/-- The meaning of NUDGE (R75). -/
def execNudge (c : CpId) (tag : Byte) (dest : BitVec 16) (amount : Byte) (s : State) :
    Host.Outcome State Fault Refusal :=
  .next (command c 0x29 tag (effectNudge c dest amount) s)

/-! ## CHECK TEST (R91) -/

/-- CHECK TEST (R91): the stored check code becomes the computed code plus 1, modulo 65536. -/
def effectCheckTest (c : CpId) (dest : BitVec 16) : Effect := fun s =>
  match destField dest with
  | none => refuse .badArg s
  | some d =>
    if !isSenior s c then refuse .notSenior s
    else answer [] (modEntry d (fun e => { e with code := e.computedCode + 1 }) s)

/-- The meaning of CHECK_TEST (R91). -/
def execCheckTest (c : CpId) (tag : Byte) (dest : BitVec 16) (s : State) :
    Host.Outcome State Fault Refusal :=
  .next (command c 0x2A tag (effectCheckTest c dest) s)

end Sys2Proof.Machine
end

