-- ==== Sys2Proof/Machine/FaultCommands.lean ====
section
/-! DEFINITION. The commands of the Fault Unit (spec/10): READ FAULTS (R160), CLEAR FAULTS (R159) and SET
LINE MASK (R161). -/

namespace Sys2Proof.Machine

/-- The conditions of CROWDED[0..7] as a byte (R177). -/
def crowdedByte (s : State) : Byte :=
  (List.finRange 8).foldl (fun b l =>
    if (s.writers.look l).crowding = .none then b else b ||| BitVec.twoPow 8 l.val) 0

/-- The conditions of PORT_CLOCK_LOST[0..3] as a byte (R177). -/
def clockLostByte (s : State) : Byte :=
  (List.finRange 4).foldl (fun b p =>
    if (s.saps.look p).present then b else b ||| BitVec.twoPow 8 p.val) 0

/-- The payload of READ FAULTS (R160, R177). -/
def faultPayload (s : State) : List Byte :=
  flagBytes s ++ [crowdedByte s, clockLostByte s] ++ suspectBytes s ++
    [s.lineMask.setWidth 8, boolByte (faultLine s)]

/-- READ FAULTS (R160). -/
def effectReadFaults : Effect := fun s => answer (faultPayload s) s

/-- The meaning of READ_FAULTS (R160). -/
def execReadFaults (c : CpId) (tag : Byte) (s : State) : Host.Outcome State Fault Refusal :=
  .next (command c 0x40 tag effectReadFaults s)

/-- CLEAR FAULTS (R159): a nonzero eighth selection byte names a flag that does not exist (R175). -/
def effectClearFaults (selection : BitVec 64) : Effect := fun s =>
  if selection.extractLsb' 56 8 ≠ 0 then refuse .badArg s
  else
    let s1 := clearFlags (selection.setWidth 56) s
    answer (flagBytes s1 ++ suspectBytes s1) s1

/-- The meaning of CLEAR_FAULTS (R159). -/
def execClearFaults (c : CpId) (tag : Byte) (selection : BitVec 64) (s : State) :
    Host.Outcome State Fault Refusal :=
  .next (command c 0x41 tag (effectClearFaults selection) s)

/-- SET LINE MASK (R161). -/
def effectSetLineMask (c : CpId) (mask : Byte) : Effect := fun s =>
  if mask.getLsbD 6 || mask.getLsbD 7 then refuse .badArg s
  else if !isSenior s c then refuse .notSenior s
  else answer [] { s with lineMask := mask.setWidth 6 }

/-- The meaning of SET_LINE_MASK (R161). -/
def execSetLineMask (c : CpId) (tag mask : Byte) (s : State) : Host.Outcome State Fault Refusal :=
  .next (command c 0x42 tag (effectSetLineMask c mask) s)

end Sys2Proof.Machine
end

