-- ==== Sys2Proof/Machine/FeedEvents.lean ====
section
/-! DEFINITION. The meanings of the events of the feeds and of the frame timers: INPUT_FRAME_START,
LATE_FRAME_START, CANDIDATE_LAPSE, FRAME_START, COAST_EXPIRY and SWITCH_POINT (spec/01). The events that
the engine's own timers raise have their effect only when they are due (log 2). -/

namespace Sys2Proof.Machine

/-! ## Input frame starts (R4, R7, R10, R11, R13) -/

/-- The input frame start in RUN (R7, R11): a frame opens when R7 takes it as a frame start; a loss then
ends RUN; without a loss an input frame start that opens no frame resets the timer's phase. A loss that falls
on a frame start is taken after the frame start's work (log 36). A loss at an input frame start that opens no
frame leaves the phase as it stands, at the frame start or at an earlier realignment in the frame
(log 15). -/
def inputInRun (l : LaneId) (d : Detector) (lost : Bool) (s : State) : State :=
  let s1 := if opensFrame s l then frameStart l s else s
  let s2 := modLane l (fun n => { n with detector := d }) s1
  if lost then loseLock l s2
  else if opensFrame s l then s2
  else modLane l (fun n => { n with phaseAt := s.now }) s2

/-- An entry to RUN at an input frame start, and the frame it opens or the phase it resets (R7, R10,
R13). -/
def runAtInput (l : LaneId) (c : FormatClass) (s : State) : State :=
  let s1 := enterRun l c s
  if opensFrame s l then frameStart l s1
  else modLane l (fun n => { n with phaseAt := s.now }) s1

/-- The look at the detector at an input frame start in SEEK (R10). -/
def inputInSeek (l : LaneId) (d : Detector) (s : State) : State :=
  match d with
  | .locked c =>
    if (s.lanes.look l).expected = none ∨ (s.lanes.look l).expected = some c then runAtInput l c s
    else formatChange l s
  | _ => s

/-- The look at the detector at an input frame start in COAST (R13). -/
def inputInCoast (l : LaneId) (d : Detector) (s : State) : State :=
  match d with
  | .locked c =>
    if (s.lanes.look l).expected = some c then runAtInput l c s else formatChange l s
  | _ => s

/-- The input frame that begins: its time, its line count and the cell line position of reader and
writer; in RUN the reader parses from here on (R27, R32, R48, R57). -/
def beginInput (l : LaneId) (s : State) : State :=
  modLane l (fun n => { n with inputAt := some s.now, inputLines := 0 })
    (modWriter l (fun w => { w with linePos := 0 })
      (modReader l (fun r => { r with
        handed := []
        parsing := decide ((s.lanes.look l).state = .run) }) s))

/-- INPUT_FRAME_START (R4, R5, R7, R10, R11, R13): the detector judges the frame that closes, the lane
state acts on the finding, and the next input frame begins. -/
def inputFrameStart (l : LaneId) (s : State) : State :=
  if awake s then
    let n := s.lanes.look l
    let d := (n.judged s.now).1
    let judged := modLane l (fun n => { n with detector := d }) s
    beginInput l
      (match n.state with
       | .run => inputInRun l d (n.judged s.now).2 s
       | .seek => inputInSeek l d judged
       | .coast => inputInCoast l d judged
       | _ => judged)
  else s

/-- The meaning of INPUT_FRAME_START. -/
def execInputFrameStart (l : LaneId) (s : State) : Host.Outcome State Fault Refusal :=
  .next (inputFrameStart l s)

/-! ## Late frame starts and lapses (R4, R5) -/

/-- LATE_FRAME_START (R5, R6, R11): lock is lost; in RUN the timer produces the overdue frame start and
the lane leaves RUN, in this order (log 36). The overdue frame start is produced even where less than half a
period has passed since an entry to RUN by R15, and a switch point of the frame it cuts that has not fallen
yet does not fall (log 35). -/
def lateFrameStart (l : LaneId) (s : State) : State :=
  if lateDue s l then
    let unlock := modLane l fun n => { n with detector := .unlocked }
    if (s.lanes.look l).state = .run then loseLock l (unlock (frameStart l s)) else unlock s
  else s

/-- The meaning of LATE_FRAME_START. -/
def execLateFrameStart (l : LaneId) (s : State) : Host.Outcome State Fault Refusal :=
  .next (lateFrameStart l s)

/-- CANDIDATE_LAPSE (R4). -/
def candidateLapse (l : LaneId) (s : State) : State :=
  if lapseDue s l then modLane l (fun n => { n with detector := .unlocked }) s else s

/-- The meaning of CANDIDATE_LAPSE. -/
def execCandidateLapse (l : LaneId) (s : State) : Host.Outcome State Fault Refusal :=
  .next (candidateLapse l s)

/-! ## The timer's own events (R8, R13) -/

/-- FRAME_START (R8): the frame start that the timer marks outside RUN. -/
def timedFrameStart (l : LaneId) (s : State) : State :=
  if frameDue s l then frameStart l s else s

/-- The meaning of FRAME_START. -/
def execFrameStart (l : LaneId) (s : State) : Host.Outcome State Fault Refusal :=
  .next (timedFrameStart l s)

/-- COAST_EXPIRY (R13): the count reaches the limit and the lane parks, before the rest of the frame
start (log 13). -/
def coastExpiry (l : LaneId) (s : State) : State :=
  if expiryDue s l then enterParked l .coastExpiry s else s

/-- The meaning of COAST_EXPIRY. -/
def execCoastExpiry (l : LaneId) (s : State) : Host.Outcome State Fault Refusal :=
  .next (coastExpiry l s)

/-- A pending plan becomes the current plan (R23). -/
def Lane.planCurrent (n : Lane) : Lane :=
  match n.pendingPlan with
  | some p => { n with plan := p, pendingPlan := none }
  | none => n

/-- SWITCH_POINT (R8): the pending plan, the pending nudges, and the take timer's work unless TAKE has
done it (R23, R76, R120). -/
def switchPoint (l : LaneId) (s : State) : State :=
  if switchPointDue s l then
    let s1 := applyNudges l (modLane l Lane.planCurrent s)
    let s2 := if (s.lanes.look l).takePending then takeTimerWork l s1 else s1
    modLane l (fun n => { n with switchPending := false, takePending := false }) s2
  else s

/-- The meaning of SWITCH_POINT. -/
def execSwitchPoint (l : LaneId) (s : State) : Host.Outcome State Fault Refusal :=
  .next (switchPoint l s)

end Sys2Proof.Machine
end

