-- ==== Sys2Proof/Machine/LaneCommands.lean ====
section
/-! DEFINITION. The lane commands (spec/01): LANE ENABLE, LANE DISABLE, LANE PARK, LANE RESUME, SET EMIT,
SET STRIP, SET PARK MODE, SET COAST LIMIT and READ LANE. -/

namespace Sys2Proof.Machine

/-- The checks of a lane command in the order of R20, then its effect on the lane, answered OK. -/
def laneCommand (c : CpId) (lane : Byte) (fieldsOk : Bool) (allowed : LaneState → Bool)
    (effect : LaneId → State → State) : Effect := fun s =>
  match laneField lane with
  | none => refuse .badArg s
  | some l =>
    if !fieldsOk then refuse .badArg s
    else if s.holders.look (laneItem l) ≠ some c then refuse .notOwner s
    else if !allowed (s.lanes.look l).state then refuse .state s
    else answer [] (effect l s)

/-- A command that every lane state allows. -/
def anyState (_ : LaneState) : Bool := true

/-- LANE ENABLE in OFF (R9). -/
def laneEnable (l : LaneId) (s : State) : State :=
  laneNotice l (modLane l (fun n => { n with state := .seek }) s)

/-- The meaning of LANE_ENABLE (R9). -/
def execLaneEnable (c : CpId) (tag lane : Byte) (s : State) : Host.Outcome State Fault Refusal :=
  .next (command c 0x10 tag (laneCommand c lane true (· == .off) laneEnable) s)

/-- LANE DISABLE (R18): to OFF from every state; in OFF nothing changes. -/
def laneDisable (l : LaneId) (s : State) : State :=
  let off := modLane l fun n => { n with
    state := .off, coastCount := 0, relockSeen := false, resumeArmed := false, parkCause := none }
  match (s.lanes.look l).state with
  | .off => s
  | .run => laneNotice l (off (departRun l s))
  | .parked => laneNotice l (off (leaveParked l s))
  | _ => laneNotice l (off s)

/-- The meaning of LANE_DISABLE (R18). -/
def execLaneDisable (c : CpId) (tag lane : Byte) (s : State) : Host.Outcome State Fault Refusal :=
  .next (command c 0x11 tag (laneCommand c lane true anyState laneDisable) s)

/-- LANE PARK in RUN or COAST (R17). -/
def lanePark (l : LaneId) (s : State) : State :=
  enterParked l .command (if (s.lanes.look l).state = .run then departRun l s else s)

/-- The meaning of LANE_PARK (R17). -/
def execLanePark (c : CpId) (tag lane : Byte) (s : State) : Host.Outcome State Fault Refusal :=
  .next (command c 0x12 tag (laneCommand c lane true (fun x => x == .run || x == .coast) lanePark) s)

/-- LANE RESUME in PARKED (R16): to SEEK, the expected class cleared. -/
def laneResume (l : LaneId) (s : State) : State :=
  laneNotice l (modLane l (fun n => { n with state := .seek, expected := none }) (leaveParked l s))

/-- The meaning of LANE_RESUME (R16). -/
def execLaneResume (c : CpId) (tag lane : Byte) (s : State) : Host.Outcome State Fault Refusal :=
  .next (command c 0x13 tag (laneCommand c lane true (· == .parked) laneResume) s)

/-- The plan that a pending plan is built from: the pending plan, or the current one (R23). -/
def Lane.planBase (n : Lane) : Plan := n.pendingPlan.getD n.plan

/-- SET EMIT (R23). -/
def setEmit (groups : Byte) (l : LaneId) (s : State) : State :=
  modLane l (fun n => { n with pendingPlan := some { n.planBase with emit := groups } }) s

/-- The meaning of SET_EMIT (R23). -/
def execSetEmit (c : CpId) (tag lane groups : Byte) (s : State) : Host.Outcome State Fault Refusal :=
  .next (command c 0x14 tag (laneCommand c lane true anyState (setEmit groups)) s)

/-- SET STRIP (R23). -/
def setStrip (groups : Byte) (l : LaneId) (s : State) : State :=
  modLane l (fun n => { n with pendingPlan := some { n.planBase with strip := groups } }) s

/-- The meaning of SET_STRIP (R23). -/
def execSetStrip (c : CpId) (tag lane groups : Byte) (s : State) : Host.Outcome State Fault Refusal :=
  .next (command c 0x15 tag (laneCommand c lane true anyState (setStrip groups)) s)

/-- SET PARK MODE (R21): no entry effect is made by the command. -/
def setParkMode (mode : Byte) (l : LaneId) (s : State) : State :=
  match parkModeField mode with
  | some m => modLane l (fun n => { n with parkMode := m }) s
  | none => s

/-- The meaning of SET_PARK_MODE (R21). -/
def execSetParkMode (c : CpId) (tag lane mode : Byte) (s : State) : Host.Outcome State Fault Refusal :=
  .next (command c 0x16 tag
    (laneCommand c lane (parkModeField mode).isSome anyState (setParkMode mode)) s)

/-- SET COAST LIMIT (R21). -/
def setCoastLimit (frames : Byte) (l : LaneId) (s : State) : State :=
  modLane l (fun n => { n with coastLimit := frames.toNat }) s

/-- The meaning of SET_COAST_LIMIT (R21): 0..250 frames. -/
def execSetCoastLimit (c : CpId) (tag lane frames : Byte) (s : State) :
    Host.Outcome State Fault Refusal :=
  .next (command c 0x17 tag
    (laneCommand c lane (decide (frames.toNat ≤ 250)) anyState (setCoastLimit frames)) s)

/-- The payload of READ LANE with part STATE (R22, R177). -/
def laneStatePayload (s : State) (l : LaneId) : List Byte :=
  let n := s.lanes.look l
  let pending := n.pendingPlan.getD ⟨0, 0⟩
  [laneStateCode n.state, classCode n.expected, detectorCode n.detector, classCode n.detector.shown,
    parkModeCode n.parkMode, parkCauseCode n.parkCause, BitVec.ofNat 8 n.coastLimit,
    BitVec.ofNat 8 n.coastCount, boolByte n.relockSeen, n.plan.emit, n.plan.strip,
    boolByte n.pendingPlan.isSome, pending.emit, pending.strip] ++
    (List.finRange 8).map fun g => presenceCode ((s.readers.look l).groups.look g).presence

/-- The payload of READ LANE with part TAG (R22, R177). -/
def laneTagPayload (s : State) (l : LaneId) (t : TrackId) : List Byte :=
  let kept := ((s.readers.look l).tracks.look t).kept
  let block := kept.getD zeroBlock
  [BitVec.ofNat 8 t.val, boolByte kept.isSome] ++ (List.finRange 32).map fun i => block.look i

/-- READ LANE (R22): part 0 is STATE, part 1 is TAG with a track; the track byte is not looked at with
part STATE (log 28). -/
def effectReadLane (lane part track : Byte) : Effect := fun s =>
  match laneField lane with
  | none => refuse .badArg s
  | some l =>
    if part = 0 then answer (laneStatePayload s l) s
    else if part = 1 then
      match asFin 24 track.toNat with
      | some t => answer (laneTagPayload s l t) s
      | none => refuse .badArg s
    else refuse .badArg s

/-- The meaning of READ_LANE (R22). -/
def execReadLane (c : CpId) (tag lane part track : Byte) (s : State) :
    Host.Outcome State Fault Refusal :=
  .next (command c 0x18 tag (effectReadLane lane part track) s)

end Sys2Proof.Machine
end

