-- ==== Sys2Proof/Machine/PatchEvents.lean ====
section
/-! DEFINITION. The events of the patch table outside applications: the end of a fade (R74), the scrub's
visit (R87, R88, R90) and an upset of an entry's storage (R79). Holds the meanings of FADE_END,
SCRUB_VISIT and ENTRY_UPSET. -/

namespace Sys2Proof.Machine

/-- FADE_END (R74): a fade whose position has reached its length is dropped. Every read and silent
advance does this itself, so that no state that a run reaches holds such a fade (log 13). -/
def fadeEnd (d : DestId) (s : State) : State :=
  modEntry d (fun e => { e with fade := endFade e.fade }) s

/-- The meaning of FADE_END. -/
def execFadeEnd (d : DestId) (s : State) : Host.Outcome State Fault Refusal := .next (fadeEnd d s)

/-- The mark of SUSPECT (R88): the fade ends and the health changes. -/
def Entry.suspected (e : Entry) : Entry := { e with fade := none, health := .suspect }

/-- The visit of one entry (R88, R90). -/
def visitEntry (d : DestId) (s : State) : State :=
  let e := s.entries.look d
  if e.health = .good ∧ e.matches = false then
    let s1 := setFlag .entryCheck (modEntry d Entry.suspected s)
    { s1 with firstSuspect := some (s1.firstSuspect.getD d) }
  else s

/-- A scrub visit is due (R87). The scrub does not run during the load (R92). -/
def scrubDue (s : State) : Bool := s.phase == .running && decide (s.scrubAt ≤ s.now)

/-- SCRUB_VISIT (R87): the entry at the scrub position is visited and the position moves on by 1, from
D255 to D0. -/
def scrubVisit (s : State) : State :=
  if scrubDue s then
    let s1 := visitEntry s.scrubPos s
    { s1 with scrubPos := s1.scrubPos + 1, scrubAt := s1.scrubAt + Config.scrubPeriod }
  else s

/-- The meaning of SCRUB_VISIT. -/
def execScrubVisit (s : State) : Host.Outcome State Fault Refusal := .next (scrubVisit s)

/-- An entry after an upset of one stored field (R79). -/
def Entry.upset (u : Upset) (e : Entry) : Entry :=
  match u with
  | .source v => { e with source := v }
  | .tag v => { e with tag := v }
  | .delay v => { e with delay := v }
  | .code v => { e with code := v }

/-- ENTRY_UPSET (R79): the storage of an entry changes by itself; no reference count and no counted
reference changes with it. Until the scene is loaded every destination is read as silence at its reset
values (R92, R163) and the load rewrites every stored field (R93), so an upset changes nothing then
(log 41). -/
def entryUpset (d : DestId) (u : Upset) (s : State) : State :=
  if s.phase = .running then modEntry d (Entry.upset u) s else s

/-- The meaning of ENTRY_UPSET. -/
def execEntryUpset (d : DestId) (u : Upset) (s : State) : Host.Outcome State Fault Refusal :=
  .next (entryUpset d u s)

end Sys2Proof.Machine
end

