-- ==== Sys2Proof/Machine/PortCommands.lean ====
section
/-! DEFINITION. The commands about a control port itself: KEEPALIVE (R155), READ STATUS (R154), CLEAR
NOTICES and SET NOTICE MASK (R153). -/

namespace Sys2Proof.Machine

/-- The meaning of KEEPALIVE (R155): as a block taken it refreshes liveness, and nothing else. -/
def execKeepalive (c : CpId) (tag : Byte) (s : State) : Host.Outcome State Fault Refusal :=
  .next (command c 0x01 tag (answer []) s)

/-- The payload of READ STATUS (R154, R177). -/
def statusPayload (s : State) (c : CpId) : List Byte :=
  let p := s.ports.look c
  [p.notices.setWidth 8, p.noticeMask.setWidth 8, p.faultMask.setWidth 8] ++
    ((List.finRange 3).map fun k => livenessCode (s.ports.look k).liveness) ++
    [cpCode s.senior, groupSummary s, loadOutcomeCode s.loadOutcome, boolByte s.saving.isSome,
      boolByte s.saveGuard]

/-- READ STATUS: what it answers. -/
def effectReadStatus (c : CpId) : Effect := fun s => answer (statusPayload s c) s

/-- The meaning of READ_STATUS (R154). -/
def execReadStatus (c : CpId) (tag : Byte) (s : State) : Host.Outcome State Fault Refusal :=
  .next (command c 0x02 tag (effectReadStatus c) s)

/-- CLEAR NOTICES (R153): the named flags of the caller are cleared; a bit that names no notice is
refused (R175). -/
def effectClearNotices (c : CpId) (notices : Byte) : Effect := fun s =>
  if notices.getLsbD 7 then refuse .badArg s
  else
    let s1 := modPort c (fun p => { p with notices := p.notices &&& ~~~(notices.setWidth 7) }) s
    answer [(s1.ports.look c).notices.setWidth 8] s1

/-- The meaning of CLEAR_NOTICES (R153). -/
def execClearNotices (c : CpId) (tag notices : Byte) (s : State) : Host.Outcome State Fault Refusal :=
  .next (command c 0x03 tag (effectClearNotices c notices) s)

/-- SET NOTICE MASK (R153): both masks of the caller are replaced at once; an enable of a notice or a
group that does not exist is refused. -/
def effectSetNoticeMask (c : CpId) (noticeMask faultMask : Byte) : Effect := fun s =>
  if noticeMask.getLsbD 7 || faultMask.getLsbD 6 || faultMask.getLsbD 7 then refuse .badArg s
  else answer [] (modPort c (fun p => { p with
    noticeMask := noticeMask.setWidth 7, faultMask := faultMask.setWidth 6 }) s)

/-- The meaning of SET_NOTICE_MASK (R153). -/
def execSetNoticeMask (c : CpId) (tag noticeMask faultMask : Byte) (s : State) :
    Host.Outcome State Fault Refusal :=
  .next (command c 0x04 tag (effectSetNoticeMask c noticeMask faultMask) s)

end Sys2Proof.Machine
end

