-- ==== Sys2Proof/Machine/TagCommands.lean ====
section
/-! DEFINITION. The commands of the Tag Pool (spec/08): WRITE TAG (R135), FREE TAG (R138) and READ TAG
(R137). -/

namespace Sys2Proof.Machine

/-- A character of a label (R133): 20h..7Eh. -/
def labelChar (b : Byte) : Bool := decide (0x20 ≤ b.toNat) && decide (b.toNat ≤ 0x7E)

/-- A kind code, a label and its length in range (R135, R175): kinds 0..3, at most 16 characters, each
20h..7Eh. -/
def labelOk (kind : Byte) (label : List Byte) : Bool :=
  decide (kind.toNat ≤ 3) && decide (label.length ≤ 16) && label.all labelChar

/-- The first `n` of 16 label bytes. -/
def labelOf (n : Nat) (bytes : Table Byte 16) : List Byte :=
  ((List.finRange 16).map fun i => bytes.look i).take n

/-- The author of a record, if it is written and has one (R133, R134). -/
def TagRecord.author (r : TagRecord) : Option CpId :=
  match r.content with
  | some t => t.author
  | none => none

/-- WRITE TAG (R135): every stored field is replaced and the caller becomes the author; the reference
count is unchanged. -/
def effectWriteTag (c : CpId) (index kind length : Byte) (label : Table Byte 16)
    (user : Table Byte 8) : Effect := fun s =>
  let text := labelOf length.toNat label
  match tagField index with
  | none => refuse .badArg s
  | some n =>
    let r := s.tags.look n
    if 16 < length.toNat ∨ labelOk kind text = false then refuse .badArg s
    else if r.author ≠ none ∧ r.author ≠ some c then refuse .notOwner s
    else
      answer (numBytes r.count)
        (modTag n (fun r => { r with content := some ⟨kind, text, user, some c⟩ }) s)

/-- The meaning of WRITE_TAG (R135). -/
def execWriteTag (c : CpId) (tag index kind length : Byte) (label : Table Byte 16)
    (user : Table Byte 8) (s : State) : Host.Outcome State Fault Refusal :=
  .next (command c 0x38 tag (effectWriteTag c index kind length label user) s)

/-- FREE TAG (R138). -/
def effectFreeTag (c : CpId) (index : Byte) : Effect := fun s =>
  match tagField index with
  | none => refuse .badArg s
  | some n =>
    let r := s.tags.look n
    if r.content.isNone then refuse .empty s
    else if r.author ≠ some c ∧ isSenior s c = false then refuse .notOwner s
    else if r.count ≠ 0 then refuse .inUse s
    else answer [] (modTag n (fun r => { r with content := none }) s)

/-- The meaning of FREE_TAG (R138). -/
def execFreeTag (c : CpId) (tag index : Byte) (s : State) : Host.Outcome State Fault Refusal :=
  .next (command c 0x39 tag (effectFreeTag c index) s)

/-- The payload of READ TAG (R137, R177). -/
def tagPayload (r : TagRecord) : List Byte :=
  match r.content with
  | none => List.replicate 28 0 ++ numBytes r.count
  | some t =>
    [1, t.kind, BitVec.ofNat 8 t.label.length] ++ padBytes 16 t.label ++
      ((List.finRange 8).map fun i => t.user.look i) ++ [cpCode t.author] ++ numBytes r.count

/-- READ TAG (R137). -/
def effectReadTag (index : Byte) : Effect := fun s =>
  match tagField index with
  | none => refuse .badArg s
  | some n => answer (tagPayload (s.tags.look n)) s

/-- The meaning of READ_TAG (R137). -/
def execReadTag (c : CpId) (tag index : Byte) (s : State) : Host.Outcome State Fault Refusal :=
  .next (command c 0x3A tag (effectReadTag index) s)

end Sys2Proof.Machine
end

