-- ==== Sys2Proof/Machine/SceneStore.lean ====
section
/-! DEFINITION. The Scene Store (spec/11): the snapshot of a save (R165, R166), its completion (R167), the
choice of the scene that a start-up loads (R170) and the guard (R168). Holds the meanings of SAVE_SCENE,
SAVE_COMPLETE, SAVE_TIMEOUT and SET_GUARD. -/

namespace Sys2Proof.Machine

/-! ## The snapshot (R95, R112, R142, R165) -/

/-- What a scene takes from an entry (R95): the checked fields of one that is GOOD and matches; else the
silence source. An upset can leave a field out of range, and an applied change that does not carry that
field then makes the entry GOOD and matching: the bits are saved as they are stored, and the image fails the
range check of R170 as a whole (log 44). -/
def Entry.saved (e : Entry) : ScenePatch :=
  if e.health = .good ∧ e.matches = true then ⟨e.source, e.tag, e.delay⟩
  else ⟨257, tagCodeNone, 64⟩

/-- What a scene takes from a lane (R24). -/
def Lane.saved (n : Lane) : SceneLane :=
  ⟨decide (n.state ≠ .off), n.expected, n.plan, n.parkMode, n.coastLimit⟩

/-- The snapshot of the running engine (R165). -/
def takeSnapshot (s : State) : Scene where
  patch := Table.gen fun d => (s.entries.look d).saved
  claims := s.holders
  lanes := Table.gen fun l => (s.lanes.look l).saved
  refLanes := Table.gen fun p => (s.saps.look p).refLane
  toneLevel := s.toneLevel
  tags := Table.gen fun n => (s.tags.look n).content
  lateMs := s.lateMs
  lostSeconds := s.lostSeconds
  lineMask := s.lineMask
  saveGuard := s.saveGuard

/-! ## Saving (R166, R167) -/

/-- SAVE SCENE (R166): the snapshot is taken, the store becomes busy and its image is torn until the save
completes (log 32); the caller's slot stays EXECUTING. -/
def effectSaveScene (c : CpId) : Effect := fun s =>
  if s.saving.isSome then refuse .storeBusy s
  else if s.saveGuard = true ∧ isSenior s c = false then refuse .guarded s
  else ({ s with store := .torn, saving := some ⟨c, takeSnapshot s, s.now⟩ }, none)

/-- The meaning of SAVE_SCENE (R166). -/
def execSaveScene (c : CpId) (tag : Byte) (s : State) : Host.Outcome State Fault Refusal :=
  .next (command c 0x48 tag (effectSaveScene c) s)

/-- The response of a completed save is placed in the slot that has been EXECUTING (R167). -/
def placeSave (c : CpId) (result : Result) (s : State) : State :=
  match (s.ports.look c).slot with
  | .executing code tag => placeCompleted c code tag result [] s
  | _ => s

/-- A save completes (R167). -/
def finishSave (ok : Bool) (v : Save) (s : State) : State :=
  let s1 := { s with
    saving := none
    store := if ok then .image v.snapshot (Config.sceneCheck v.snapshot) else .torn }
  if ok then placeSave v.caller .ok s1
  else setFlag .sceneSaveFail (placeSave v.caller .saveFailed s1)

/-- SAVE_COMPLETE (R167): OK when every part read back as written within 400 ms. -/
def saveComplete (readBack : Bool) (s : State) : State :=
  match s.saving with
  | none => s
  | some v => finishSave (readBack && decide (s.now ≤ v.startedAt + Config.saveLimit)) v s

/-- The meaning of SAVE_COMPLETE. -/
def execSaveComplete (readBack : Bool) (s : State) : Host.Outcome State Fault Refusal :=
  .next (saveComplete readBack s)

/-- 400 ms have passed with the image incomplete (R167). -/
def saveTimeoutDue (s : State) : Bool :=
  match s.saving with
  | none => false
  | some v => decide (v.startedAt + Config.saveLimit ≤ s.now)

/-- SAVE_TIMEOUT (R167). -/
def saveTimeout (s : State) : State :=
  match s.saving with
  | none => s
  | some v => if saveTimeoutDue s then finishSave false v s else s

/-- The meaning of SAVE_TIMEOUT. -/
def execSaveTimeout (s : State) : Host.Outcome State Fault Refusal := .next (saveTimeout s)

/-! ## The guard (R168) -/

/-- SET GUARD (R168). -/
def effectSetGuard (c : CpId) (value : Byte) : Effect := fun s =>
  if value ≠ 0 ∧ value ≠ 1 then refuse .badArg s
  else if !isSenior s c then refuse .notSenior s
  else answer [] { s with saveGuard := decide (value = 1) }

/-- The meaning of SET_GUARD (R168). -/
def execSetGuard (c : CpId) (tag value : Byte) (s : State) : Host.Outcome State Fault Refusal :=
  .next (command c 0x49 tag (effectSetGuard c value) s)

/-! ## What a start-up loads (R170) -/

/-- Whether the saved part of an entry is in range (R170). -/
def ScenePatch.inRange (p : ScenePatch) : Bool :=
  decide (p.source.toNat ≤ 257) && (tagRefOfCode p.tag).isSome &&
    decide (16 ≤ p.delay.toNat) && decide (p.delay.toNat ≤ 2048)

/-- Whether the saved content of a record is in range (R170). -/
def TagContent.inRange (t : TagContent) : Bool := labelOk t.kind t.label

/-- Whether every value of a scene is one that its owning command would take (R170). The other values of a
scene have no value out of range in this form. -/
def Scene.inRange (x : Scene) : Bool :=
  (List.finRange 256).all (fun d => (x.patch.look d).inRange) &&
    (List.finRange 8).all (fun l => decide ((x.lanes.look l).coastLimit ≤ 250)) &&
    toneOk x.toneLevel &&
    (List.finRange 64).all (fun n => match x.tags.look n with
      | some t => t.inRange
      | none => true) &&
    watchOk x.lateMs x.lostSeconds

/-- The scene that a start-up loads and the outcome it records (R170). -/
def chosenScene (c : StoreContent) : Scene × LoadOutcome :=
  match c with
  | .nothing => (defaultScene, .defaultNoImage)
  | .torn => (defaultScene, .defaultCheckFailed)
  | .image x check =>
    if check = Config.sceneCheck x ∧ x.inRange = true then (x, .image)
    else (defaultScene, .defaultCheckFailed)

end Sys2Proof.Machine
end

