-- ==== Sys2Proof/Machine/Startup.lean ====
section
/-! DEFINITION. Start-up and restart (R169 to R172): the reset of every block, the load of the scene, and
RESTART in its two forms. Holds the meanings of POWER_UP, RESET_N_LOW, RESET_N_RELEASE, SCENE_LOAD,
POWER_LOSS, RESTART_FULL and RESTART_RETAIN. -/

namespace Sys2Proof.Machine

/-! ## The reset (steps 1 and 2 of R169) -/

/-- The senior port that the straps name (R97); bit 1 is SEN1, bit 0 is SEN0. -/
def seniorOf (straps : BitVec 2) : Option CpId :=
  match straps.toNat with
  | 1 => some 0
  | 2 => some 1
  | 3 => some 2
  | _ => none

/-- Steps 1 and 2 of start-up: the straps name the senior port and every block is reset; the store's
content is untouched (R165). -/
def startUp (straps : BitVec 2) (s : State) : State :=
  State.blockReset s.pending s.now s.choices .starting s.resetLow (seniorOf straps) s.store

/-- The engine held at the reset of step 2 while RESET_N is low (R169). The senior port stands until the
straps are next sampled (log 33). -/
def holdAtReset (s : State) : State :=
  State.blockReset s.pending s.now s.choices .heldReset true s.senior s.store

/-- Power-up (R169): start-up begins, or, while RESET_N is low, the engine is held at the reset until
RESET_N is released. -/
def powerUp (straps : BitVec 2) (s : State) : State :=
  if s.resetLow then holdAtReset s else startUp straps s

/-- The meaning of POWER_UP (R169). -/
def execPowerUp (straps : BitVec 2) (s : State) : Host.Outcome State Fault Refusal :=
  .next (powerUp straps s)

/-- RESET_N driven low (R169): the engine is held at the reset; without supply the pin's level alone
changes. -/
def resetNLow (s : State) : State :=
  if s.phase = .unpowered then { s with resetLow := true } else holdAtReset s

/-- The meaning of RESET_N_LOW. -/
def execResetNLow (s : State) : Host.Outcome State Fault Refusal := .next (resetNLow s)

/-- RESET_N released (R169): start-up begins where the engine was held at the reset. -/
def resetNRelease (straps : BitVec 2) (s : State) : State :=
  let high := { s with resetLow := false }
  if s.phase = .heldReset then startUp straps high else high

/-- The meaning of RESET_N_RELEASE. -/
def execResetNRelease (straps : BitVec 2) (s : State) : Host.Outcome State Fault Refusal :=
  .next (resetNRelease straps s)

/-- The supply fails (R167): nothing but the store's content is left, torn where a save was in
progress. -/
def powerLoss (s : State) : State :=
  State.blockReset s.pending s.now s.choices .unpowered s.resetLow none s.store

/-- The meaning of POWER_LOSS. -/
def execPowerLoss (s : State) : Host.Outcome State Fault Refusal := .next (powerLoss s)

/-! ## The load (steps 3 to 5 of R169) -/

/-- The tag code that an entry is loaded with (R143): NONE where it names a record that the scene holds
free. -/
def loadedTag (x : Scene) (code : Byte) : Byte :=
  match tagRefOfCode code with
  | some (.record n) => if (x.tags.look n).isNone then tagCodeNone else code
  | _ => code

/-- An entry as it is loaded, before its alignment (R93). -/
def loadedEntry (x : Scene) (d : DestId) : Entry :=
  let p := x.patch.look d
  let tag := loadedTag x p.tag
  { source := p.source
    tag := tag
    counted := (tagRefOfCode tag).getD .none
    delay := p.delay
    readIndex := 0
    fade := none
    nudge := none
    health := .good
    code := Config.checkCode p.source tag p.delay }

/-- A record as it is loaded, with its count computed from the loaded entries (R143). -/
def loadedRecord (x : Scene) (entries : Table Entry 256) (n : TagId) : TagRecord :=
  ⟨x.tags.look n, (List.finRange 256).countP fun d =>
    decide ((entries.look d).counted = TagRef.record n)⟩

/-- A lane as the scene sets it (R24). -/
def loadedLane (x : SceneLane) (n : Lane) : Lane :=
  { n with
    state := if x.enabled then .seek else .off
    expected := x.expected
    plan := x.plan
    pendingPlan := none
    parkMode := x.parkMode
    coastLimit := x.coastLimit }

/-- Each block takes its part of the scene (step 3 of R169). -/
def putScene (x : Scene) (outcome : LoadOutcome) (s : State) : State :=
  let entries : Table Entry 256 := Table.gen (loadedEntry x)
  { s with
    entries := entries
    tags := Table.gen (loadedRecord x entries)
    holders := x.claims
    lanes := Table.gen fun l => loadedLane (x.lanes.look l) (s.lanes.look l)
    saps := Table.gen fun p => { s.saps.look p with refLane := x.refLanes.look p }
    toneLevel := x.toneLevel
    lateMs := x.lateMs
    lostSeconds := x.lostSeconds
    lineMask := x.lineMask
    saveGuard := x.saveGuard
    loadOutcome := outcome }

/-- The frame start with which each lane's timer begins afresh at the load (R24): the frame in progress is
closed under the entries of the reset (log 26). -/
def closeAllFrames (s : State) : State := (List.finRange 8).foldl (fun s l => closeFrame l s) s

/-- The same frame start's other half: the tag blocks are latched from the loaded entries, and the timer
opens its first frame at the rate of the loaded class (R24). -/
def openAllFrames (s : State) : State :=
  (List.finRange 8).foldl (fun t l => modLane l (fun n => n.opened s.now) (latchTags s l t)) s

/-- Every entry is aligned to its source when the load completes (R93). -/
def alignAll (s : State) : State :=
  { s with entries := Table.gen fun d => (s.entries.look d).aligned s }

/-- The last step of start-up (step 5 of R169, R163): the ports become SILENT with RESTARTED set, and the
flags set during the load are handed on. -/
def finishStartup (s : State) : State :=
  let s1 := { s with
    phase := .running
    scrubPos := 0
    scrubAt := s.now
    ports := Table.gen fun c =>
      ({ s.ports.look c with liveness := .silent, watchAt := s.now } : CtrlPort).notify .restarted }
  (allGroups.filter (groupSet s)).foldl (fun t g => handFault g t) s1

/-- SCENE_LOAD (R169, R170): the store read of a start-up completes. -/
def sceneLoad (s : State) : State :=
  if s.phase = .starting then
    let x := chosenScene s.store
    let s1 := alignAll (openAllFrames (putScene x.1 x.2 (closeAllFrames s)))
    finishStartup (if x.2 = .defaultCheckFailed then setFlag .sceneLoadFail s1 else s1)
  else s

/-- The meaning of SCENE_LOAD. -/
def execSceneLoad (s : State) : Host.Outcome State Fault Refusal := .next (sceneLoad s)

/-- The limit of the store read has come (R169). -/
def loadDue (s : State) : Bool :=
  s.phase == .starting && decide (s.resetAt + Config.loadLimit ≤ s.now)

/-! ## RESTART (R171, R172) -/

/-- The checks that both forms of RESTART share after the mode (R171). -/
def restartChecks (c : CpId) (effect : Effect) : Effect := fun s =>
  if !isSenior s c then refuse .notSenior s
  else if s.saving.isSome then refuse .storeBusy s
  else effect s

/-- RESTART FULL begins start-up (R171). What chip select has fixed on another port stays fixed to the end
of that port's transaction (log 19). -/
def restartFull (straps : BitVec 2) (s : State) : State :=
  let s1 := startUp straps s
  { s1 with
    ports := Table.gen fun c => { s1.ports.look c with
      transaction := (s.ports.look c).transaction, shifted := (s.ports.look c).shifted } }

/-- The meaning of RESTART_FULL (R171). -/
def execRestartFull (c : CpId) (tag : Byte) (straps : BitVec 2) (s : State) :
    Host.Outcome State Fault Refusal :=
  .next (command c 0x4A tag (restartChecks c fun s => (restartFull straps s, none)) s)

/-- RESTART RETAIN up to its answer (R172). -/
def restartRetain (s : State) : State :=
  let s1 := { s with
    ports := Table.gen fun c =>
      ({ s.ports.look c with
        slot := .empty, overrunMark := false, notices := 0, liveness := .silent,
        watchAt := s.now } : CtrlPort).notify .restarted
    flags := 0
    firstSuspect := none }
  (conditionFlags s).foldl (fun s f => setFlag f s) s1

/-- The meaning of RESTART_RETAIN (R171, R172): mode 0 is RETAIN; a mode that is neither RETAIN nor FULL is
refused first. -/
def execRestartRetain (c : CpId) (tag mode : Byte) (s : State) : Host.Outcome State Fault Refusal :=
  .next (command c 0x4A tag
    (if mode = 0 then restartChecks c fun s => answer [] (restartRetain s) else refuse .badArg) s)

end Sys2Proof.Machine
end

