-- ==== Sys2Proof/Machine/TakeCommands.lean ====
section
/-! DEFINITION. The commands of the Take Unit (spec/07): STAGE, UNSTAGE, CLOSE, CANCEL, HOLD, RUN and READ
QUEUE. -/

namespace Sys2Proof.Machine

/-! ## STAGE (R116, R117) -/

/-- The change record that the fields of STAGE spell (R113, R175); none where a field is out of
range. -/
def changeOf (dest source : BitVec 16) (fade tagRef : Byte) (delay : BitVec 16) : Option Change :=
  match destField dest, asFin 258 source.toNat, fadeField fade, changeTagField tagRef,
      changeDelayField delay with
  | some d, some src, some f, some t, some dl => some ⟨d, src, f, t, dl⟩
  | _, _, _, _, _ => none

/-- The tag reference of a change names a record that is free (R116). -/
def namesFreeRecord (s : State) (c : Change) : Bool :=
  match c.tag with
  | some (.record n) => (s.tags.look n).content.isNone
  | _ => false

/-- A staging batch holds a change for a destination. -/
def stagesDest (d : DestId) (cs : List Change) : Bool := cs.any fun c => decide (c.dest = d)

/-- A staging batch with a change put in: in place of the one for its destination, else at the end (R116,
R117). -/
def putChange (x : Change) (cs : List Change) : List Change :=
  if stagesDest x.dest cs then cs.map fun c => if c.dest = x.dest then x else c else cs ++ [x]

/-- Stage a change in a port's batch on a lane, with the tag counts (R116, R117). -/
def stageChange (c : CpId) (l : LaneId) (x : Change) (s : State) : State :=
  let old := changesFor x.dest ((s.takes.look l).staging.look c)
  endChanges old
    (countUp (x.tag.getD .none)
      (modTake l (fun t => { t with staging := t.staging.put c (putChange x (t.staging.look c)) }) s))

/-- STAGE (R116, R117). -/
def effectStage (c : CpId) (dest source : BitVec 16) (fade tagRef : Byte) (delay : BitVec 16) : Effect :=
  fun s =>
    match changeOf dest source fade tagRef delay with
    | none => refuse .badArg s
    | some x =>
      let l := timingLane s x.dest
      let t := s.takes.look l
      let mine := t.staging.look c
      if s.holders.look (destItem x.dest) ≠ some c then refuse .notOwner s
      else if namesFreeRecord s x then refuse .noTag s
      else if !stagesDest x.dest mine &&
          (decide (Config.batchLimit ≤ mine.length) || decide (Config.poolLimit ≤ t.poolCount)) then
        refuse .full s
      else
        let s1 := stageChange c l x s
        let t1 := s1.takes.look l
        answer [BitVec.ofNat 8 (t1.staging.look c).length, BitVec.ofNat 8 t1.poolCount] s1

/-- The meaning of STAGE (R116, R117). -/
def execStage (c : CpId) (tag : Byte) (dest source : BitVec 16) (fade tagRef : Byte) (delay : BitVec 16)
    (s : State) : Host.Outcome State Fault Refusal :=
  .next (command c 0x20 tag (effectStage c dest source fade tagRef delay) s)

/-! ## UNSTAGE (R118) -/

/-- UNSTAGE (R118). -/
def effectUnstage (c : CpId) (dest : BitVec 16) : Effect := fun s =>
  match destField dest with
  | none => refuse .badArg s
  | some d =>
    let l := timingLane s d
    let mine := (s.takes.look l).staging.look c
    if !stagesDest d mine then refuse .empty s
    else
      let left := changesNotFor d mine
      answer [BitVec.ofNat 8 left.length]
        (endChanges (changesFor d mine)
          (modTake l (fun t => { t with staging := t.staging.put c left }) s))

/-- The meaning of UNSTAGE (R118). -/
def execUnstage (c : CpId) (tag : Byte) (dest : BitVec 16) (s : State) :
    Host.Outcome State Fault Refusal :=
  .next (command c 0x21 tag (effectUnstage c dest) s)

/-! ## CLOSE (R119) -/

/-- A lane's take state with a port's staging batch closed with a delay (R119, R120). -/
def TakeUnit.closed (c : CpId) (delay : Nat) (t : TakeUnit) : TakeUnit :=
  let t1 := { t with
    staging := t.staging.put c []
    queue := t.queue ++ [⟨c, t.closureCounter, delay, t.staging.look c⟩]
    closureCounter := t.closureCounter + 1 }
  if t.queue.isEmpty then { t1 with timer := .counting delay } else t1

/-- CLOSE (R119). -/
def effectClose (c : CpId) (lane delay : Byte) : Effect := fun s =>
  match laneField lane with
  | none => refuse .badArg s
  | some l =>
    let t := s.takes.look l
    if 250 < delay.toNat then refuse .badArg s
    else if (t.staging.look c).isEmpty then refuse .empty s
    else if Config.queueLimit ≤ t.queue.length then refuse .full s
    else
      answer [t.closureCounter, BitVec.ofNat 8 t.queue.length]
        (modTake l (TakeUnit.closed c delay.toNat) s)

/-- The meaning of CLOSE (R119). -/
def execClose (c : CpId) (tag lane delay : Byte) (s : State) : Host.Outcome State Fault Refusal :=
  .next (command c 0x22 tag (effectClose c lane delay) s)

/-! ## CANCEL (R126) -/

/-- A lane's take state with the batch at a position removed (R126, R127). `met` says that the head was to
be applied at the switch point that has come (R123, log 39). -/
def TakeUnit.cancelled (met : Bool) (k : Nat) (t : TakeUnit) : TakeUnit :=
  let t1 := { t with queue := t.queue.eraseIdx k }
  if k = 0 then TakeUnit.reload { t1 with freshHead := t.freshHead || met } else t1

/-- CANCEL (R126, R123). Only the removal of a head that is due marks the head behind it: a head of delay 0
that a later CANCEL, a withdrawal or a CLOSE onto the emptied queue brings before the same switch point is applied
at it (log 39). -/
def effectCancel (c : CpId) (lane position closure : Byte) : Effect := fun s =>
  match laneField lane with
  | none => refuse .badArg s
  | some l =>
    if 8 ≤ position.toNat then refuse .badArg s
    else
      match (s.takes.look l).queue[position.toNat]? with
      | none => refuse .empty s
      | some b =>
        if b.closure ≠ closure then refuse .empty s
        else if b.owner ≠ c ∧ isSenior s c = false then refuse .notOwner s
        else
          let s1 := endChanges b.changes (modTake l (TakeUnit.cancelled (takeDue s l) position.toNat) s)
          answer [BitVec.ofNat 8 b.changes.length]
            (if b.owner = c then s1 else setNotice b.owner .cancelled s1)

/-- The meaning of CANCEL (R126). -/
def execCancel (c : CpId) (tag lane position closure : Byte) (s : State) :
    Host.Outcome State Fault Refusal :=
  .next (command c 0x23 tag (effectCancel c lane position closure) s)

/-! ## HOLD and RUN (R124) -/

/-- The hold reasons as a byte (R176): bit 0 COMMAND, bit 1 PARK. -/
def TakeUnit.holdByte (t : TakeUnit) : Byte :=
  (if t.holdCommand then 1 else 0) ||| (if t.holdPark then 2 else 0)

/-- HOLD and RUN (R124): set or remove the COMMAND hold. -/
def effectHold (on : Bool) (c : CpId) (lane : Byte) : Effect := fun s =>
  match laneField lane with
  | none => refuse .badArg s
  | some l =>
    match (s.takes.look l).queue with
    | [] => refuse .empty s
    | b :: _ =>
      if b.owner ≠ c ∧ isSenior s c = false then refuse .notOwner s
      else
        let s1 := modTake l (fun t => { t with holdCommand := on }) s
        answer [(s1.takes.look l).holdByte] s1

/-- The meaning of HOLD (R124). -/
def execHold (c : CpId) (tag lane : Byte) (s : State) : Host.Outcome State Fault Refusal :=
  .next (command c 0x24 tag (effectHold true c lane) s)

/-- The meaning of RUN (R124). -/
def execRun (c : CpId) (tag lane : Byte) (s : State) : Host.Outcome State Fault Refusal :=
  .next (command c 0x25 tag (effectHold false c lane) s)

/-! ## READ QUEUE (R130) -/

/-- The state byte and the count of a take timer (R177). -/
def TakeTimer.bytes : TakeTimer → List Byte
  | .idle => [0, 0]
  | .counting n => [1, BitVec.ofNat 8 n]

/-- The three bytes of a batch in READ QUEUE (R177). The owner is coded as a holder or author is (R175,
log 34). -/
def Batch.bytes (b : Batch) : List Byte :=
  [BitVec.ofNat 8 (16 * (b.owner.val + 1) + b.changes.length), b.closure, BitVec.ofNat 8 b.delay]

/-- The payload of READ QUEUE (R130, R177). -/
def queuePayload (t : TakeUnit) (c : CpId) : List Byte :=
  t.timer.bytes ++ [t.holdByte, BitVec.ofNat 8 t.queue.length, BitVec.ofNat 8 t.poolCount,
    BitVec.ofNat 8 (t.staging.look c).length] ++ t.queue.flatMap Batch.bytes

/-- READ QUEUE (R130). -/
def effectReadQueue (c : CpId) (lane : Byte) : Effect := fun s =>
  match laneField lane with
  | none => refuse .badArg s
  | some l => answer (queuePayload (s.takes.look l) c) s

/-- The meaning of READ_QUEUE (R130). -/
def execReadQueue (c : CpId) (tag lane : Byte) (s : State) : Host.Outcome State Fault Refusal :=
  .next (command c 0x26 tag (effectReadQueue c lane) s)

end Sys2Proof.Machine
end

