-- ==== Sys2Proof/Machine/Dispatch.lean ====
section
/-! DEFINITION. The meaning of every command: one arm per constructor of Instr. -/

namespace Sys2Proof.Machine

/-- The effect of a command on everything but the queue. -/
def exec (i : Instr) (s : State) : Host.Outcome State Fault Refusal :=
  match i with
  | .powerUp straps => Sys2Proof.Machine.execPowerUp straps s
  | .resetNLow => Sys2Proof.Machine.execResetNLow s
  | .resetNRelease straps => Sys2Proof.Machine.execResetNRelease straps s
  | .sceneLoad => Sys2Proof.Machine.execSceneLoad s
  | .inputFrameStart lane => Sys2Proof.Machine.execInputFrameStart lane s
  | .lateFrameStart lane => Sys2Proof.Machine.execLateFrameStart lane s
  | .candidateLapse lane => Sys2Proof.Machine.execCandidateLapse lane s
  | .frameStart lane => Sys2Proof.Machine.execFrameStart lane s
  | .coastExpiry lane => Sys2Proof.Machine.execCoastExpiry lane s
  | .switchPoint lane => Sys2Proof.Machine.execSwitchPoint lane s
  | .take lane => Sys2Proof.Machine.execTake lane s
  | .soundCell lane words => Sys2Proof.Machine.execSoundCell lane words s
  | .cellLine lane line => Sys2Proof.Machine.execCellLine lane line s
  | .wordClockFrameStart port received readFirst => Sys2Proof.Machine.execWordClockFrameStart port received readFirst s
  | .fadeEnd dest => Sys2Proof.Machine.execFadeEnd dest s
  | .portClockLost port => Sys2Proof.Machine.execPortClockLost port s
  | .internalTimerPeriod port readFirst => Sys2Proof.Machine.execInternalTimerPeriod port readFirst s
  | .portRegain port => Sys2Proof.Machine.execPortRegain port s
  | .scrubVisit => Sys2Proof.Machine.execScrubVisit s
  | .portLate cp => Sys2Proof.Machine.execPortLate cp s
  | .portLost cp => Sys2Proof.Machine.execPortLost cp s
  | .saveComplete readBack => Sys2Proof.Machine.execSaveComplete readBack s
  | .saveTimeout => Sys2Proof.Machine.execSaveTimeout s
  | .summaryPoll cp bytes => Sys2Proof.Machine.execSummaryPoll cp bytes s
  | .readResponse cp clocked => Sys2Proof.Machine.execReadResponse cp clocked s
  | .badBlock cp bytes => Sys2Proof.Machine.execBadBlock cp bytes s
  | .overrun cp bytes => Sys2Proof.Machine.execOverrun cp bytes s
  | .starting cp bytes => Sys2Proof.Machine.execStarting cp bytes s
  | .undefinedCommand cp code tag => Sys2Proof.Machine.execUndefinedCommand cp code tag s
  | .keepalive cp tag => Sys2Proof.Machine.execKeepalive cp tag s
  | .readStatus cp tag => Sys2Proof.Machine.execReadStatus cp tag s
  | .clearNotices cp tag notices => Sys2Proof.Machine.execClearNotices cp tag notices s
  | .setNoticeMask cp tag noticeMask faultMask => Sys2Proof.Machine.execSetNoticeMask cp tag noticeMask faultMask s
  | .claim cp tag first count => Sys2Proof.Machine.execClaim cp tag first count s
  | .release cp tag first count => Sys2Proof.Machine.execRelease cp tag first count s
  | .seize cp tag first count => Sys2Proof.Machine.execSeize cp tag first count s
  | .readClaims cp tag first count => Sys2Proof.Machine.execReadClaims cp tag first count s
  | .setWatch cp tag late lost => Sys2Proof.Machine.execSetWatch cp tag late lost s
  | .laneEnable cp tag lane => Sys2Proof.Machine.execLaneEnable cp tag lane s
  | .laneDisable cp tag lane => Sys2Proof.Machine.execLaneDisable cp tag lane s
  | .lanePark cp tag lane => Sys2Proof.Machine.execLanePark cp tag lane s
  | .laneResume cp tag lane => Sys2Proof.Machine.execLaneResume cp tag lane s
  | .setEmit cp tag lane groups => Sys2Proof.Machine.execSetEmit cp tag lane groups s
  | .setStrip cp tag lane groups => Sys2Proof.Machine.execSetStrip cp tag lane groups s
  | .setParkMode cp tag lane mode => Sys2Proof.Machine.execSetParkMode cp tag lane mode s
  | .setCoastLimit cp tag lane frames => Sys2Proof.Machine.execSetCoastLimit cp tag lane frames s
  | .readLane cp tag lane part track => Sys2Proof.Machine.execReadLane cp tag lane part track s
  | .stage cp tag dest source fade tagRef delay => Sys2Proof.Machine.execStage cp tag dest source fade tagRef delay s
  | .unstage cp tag dest => Sys2Proof.Machine.execUnstage cp tag dest s
  | .close cp tag lane delay => Sys2Proof.Machine.execClose cp tag lane delay s
  | .cancel cp tag lane position closure => Sys2Proof.Machine.execCancel cp tag lane position closure s
  | .hold cp tag lane => Sys2Proof.Machine.execHold cp tag lane s
  | .run cp tag lane => Sys2Proof.Machine.execRun cp tag lane s
  | .readQueue cp tag lane => Sys2Proof.Machine.execReadQueue cp tag lane s
  | .readEntry cp tag dest => Sys2Proof.Machine.execReadEntry cp tag dest s
  | .nudge cp tag dest amount => Sys2Proof.Machine.execNudge cp tag dest amount s
  | .checkTest cp tag dest => Sys2Proof.Machine.execCheckTest cp tag dest s
  | .readPort cp tag port => Sys2Proof.Machine.execReadPort cp tag port s
  | .setPortRef cp tag port lane => Sys2Proof.Machine.execSetPortRef cp tag port lane s
  | .setTone cp tag level => Sys2Proof.Machine.execSetTone cp tag level s
  | .writeTag cp tag index kind length label user => Sys2Proof.Machine.execWriteTag cp tag index kind length label user s
  | .freeTag cp tag index => Sys2Proof.Machine.execFreeTag cp tag index s
  | .readTag cp tag index => Sys2Proof.Machine.execReadTag cp tag index s
  | .readFaults cp tag => Sys2Proof.Machine.execReadFaults cp tag s
  | .clearFaults cp tag selection => Sys2Proof.Machine.execClearFaults cp tag selection s
  | .setLineMask cp tag mask => Sys2Proof.Machine.execSetLineMask cp tag mask s
  | .saveScene cp tag => Sys2Proof.Machine.execSaveScene cp tag s
  | .setGuard cp tag value => Sys2Proof.Machine.execSetGuard cp tag value s
  | .restartFull cp tag straps => Sys2Proof.Machine.execRestartFull cp tag straps s
  | .restartRetain cp tag mode => Sys2Proof.Machine.execRestartRetain cp tag mode s
  | .entryUpset dest upset => Sys2Proof.Machine.execEntryUpset dest upset s
  | .powerLoss => Sys2Proof.Machine.execPowerLoss s
  | .chipSelectFall cp => Sys2Proof.Machine.execChipSelectFall cp s

end Sys2Proof.Machine
end

