-- ==== Sys2Proof/Machine/Step.lean ====
section
/-! DEFINITION. The step of the engine: the command at the front of the queue is taken; on an empty queue
the engine's own clock runs (log 1). -/

namespace Sys2Proof.Machine

/-- The events of a lane's own timers that are due (R4, R5, R8, R13, R122). -/
def dueOfLane (s : State) (l : LaneId) : List Instr :=
  (if lateDue s l then [.lateFrameStart l] else []) ++
    (if lapseDue s l then [.candidateLapse l] else []) ++
    (if frameDue s l then [.frameStart l] else []) ++
    (if expiryDue s l then [.coastExpiry l] else []) ++
    (if switchPointDue s l then [.switchPoint l] else []) ++
    (if takeDue s l then [.take l] else [])

/-- The events of a serial audio port's own timers that are due (R64). Whether the reads of an internal
period come before its writes is a free value (log 10). -/
def dueOfSap (s : State) (p : SapId) : List Instr :=
  (if clockLossDue s p then [.portClockLost p] else []) ++
    (if timerPeriodDue s p then [.internalTimerPeriod p (Config.readsFirst s.now)] else [])

/-- The events of a control port's watch timer that are due (R106, R107). -/
def dueOfPort (s : State) (c : CpId) : List Instr :=
  (if lateIntervalDue s c then [.portLate c] else []) ++
    (if lostIntervalDue s c then [.portLost c] else [])

/-- Every event that the engine's own timers have brought due. -/
def due (s : State) : List Instr :=
  (List.finRange 8).flatMap (dueOfLane s) ++ (List.finRange 4).flatMap (dueOfSap s) ++
    (List.finRange 3).flatMap (dueOfPort s) ++
    (if scrubDue s then [.scrubVisit] else []) ++
    (if saveTimeoutDue s then [.saveTimeout] else []) ++
    (if loadDue s then [.sceneLoad] else [])

/-- The clock on an empty queue: one event that is due is put into the queue, which one being free; where
none is due, one tick passes (log 1, log 3). -/
def idle (s : State) : State :=
  match due s with
  | [] => { s with now := s.now + 1 }
  | d :: ds =>
    { s with
      pending := [(d :: ds).getD (Config.choose s.choices % (ds.length + 1)) d]
      choices := s.choices + 1 }

/-- One step: the command at the front of the queue runs on the state with the queue's rest. -/
def step (s : State) : Host.Outcome State Fault Refusal :=
  match s.pending with
  | [] => .next (idle s)
  | c :: rest => exec c { s with pending := rest }

/-- The state with the command that a word spells put at the front of the queue. -/
def State.withFetchWord (s : State) (nbits w : Nat) : State :=
  match decodeTableWord nbits w with
  | some c => { s with pending := c :: s.pending }
  | none => s

end Sys2Proof.Machine
end

