-- ==== Sys2Proof/Safety.lean ====
section
/-! DEFINITION. The forms that every step keeps (the invariants that the spec's own sentences give), and
the terms in which statements speak of a command on a control port: when its block is taken, the state it
leaves when its answer is placed, and what an event leaves of the ports. -/

namespace Sys2Proof.Machine

/-! ## Forms that every step keeps -/

/-- The Sample Store is in canonical form (R59), and the write indices of a port's 16 sources are equal to
one another (R63). -/
def StoreForm (s : State) : Prop :=
  SampleStore.wf s.mem ∧ ∀ p k, s.writeIndex.look (sapRing p k) = s.writeIndex.look (sapRing p 0)

/-- A lane with its Take Unit state: in RUN, COAST and PARKED the expected class is present; the park
cause is present and the PARK hold set exactly in PARKED; limit and count lie within 0..250 (R3, R14,
R16). -/
def LaneForm (n : Lane) (t : TakeUnit) : Prop :=
  ((n.state = .run ∨ n.state = .coast ∨ n.state = .parked) → n.expected.isSome = true) ∧
    (n.parkCause.isSome = true ↔ n.state = .parked) ∧
    (t.holdPark = true ↔ n.state = .parked) ∧
    n.coastLimit ≤ 250 ∧ n.coastCount ≤ 250

/-- Every lane is in form, and every lane is OFF while the engine is not running (R24). -/
def LanesForm (s : State) : Prop :=
  (∀ l, LaneForm (s.lanes.look l) (s.takes.look l)) ∧
    (s.phase ≠ .running → ∀ l, (s.lanes.look l).state = .off)

/-- A lane's Take Unit state: the timer is COUNTING, at no more than the head's delay, exactly while the
queue holds a batch; an empty queue has no COMMAND hold; the limits of R115 hold; and a head that a CANCEL
made wait for the next switch point stands at count 0 (R115, R120, R123, R124). -/
def TakeForm (t : TakeUnit) : Prop :=
  (match t.queue with
    | [] => t.timer = .idle ∧ t.holdCommand = false
    | b :: _ => ∃ n, n ≤ b.delay ∧ t.timer = .counting n) ∧
    t.queue.length ≤ 8 ∧ t.poolCount ≤ 32 ∧
    (∀ b ∈ t.queue, 1 ≤ b.changes.length ∧ b.changes.length ≤ 8 ∧ b.delay ≤ 250) ∧
    (∀ c, (t.staging.look c).length ≤ 8) ∧
    (t.freshHead = true → t.timer = .counting 0)

/-- Every lane's Take Unit state is in form. -/
def TakesForm (s : State) : Prop := ∀ l, TakeForm (s.takes.look l)

/-- The changes of a list belong to port `c` on lane `l`: each destination is held by `c` and timed by
`l`, and no two changes name the same one (R117, R122, R128). -/
def ChangesForm (s : State) (l : LaneId) (c : CpId) (cs : List Change) : Prop :=
  (∀ x ∈ cs, s.holders.look (destItem x.dest) = some c ∧ timingLane s x.dest = l) ∧
    (cs.map (·.dest)).Nodup

/-- Every change in a staging batch or a queued batch names a destination whose claim is held by that
batch's port (R128); nothing is staged or queued while the engine is not running (R131). -/
def ClaimsForm (s : State) : Prop :=
  (∀ l c, ChangesForm s l c ((s.takes.look l).staging.look c)) ∧
    (∀ l, ∀ b ∈ (s.takes.look l).queue, ChangesForm s l b.owner b.changes) ∧
    (s.phase ≠ .running → ∀ l, (s.takes.look l).allChanges = [])

/-- A fade length that begins a fade (R78). -/
def FadeLength (n : Nat) : Prop := n = 64 ∨ n = 256 ∨ n = 1024

/-- An entry: a FADING entry is GOOD with a position below its length, and a pending nudge is −15..+16
and not 0 (R78). -/
def EntryForm (e : Entry) : Prop :=
  (∀ f, e.fade = some f → e.health = .good ∧ FadeLength f.length ∧ f.pos < f.length) ∧
    (∀ a, e.nudge = some a → -15 ≤ a ∧ a ≤ 16 ∧ a ≠ 0)

/-- Every entry is in form, and every waiting change carries a fade length of the table (R78, R113); while the
engine is not running every entry is STEADY on S257 and no change waits (R92, R131, R163). -/
def EntriesForm (s : State) : Prop :=
  (∀ d, EntryForm (s.entries.look d)) ∧
    (∀ l, ∀ x ∈ (s.takes.look l).allChanges, x.fade = 0 ∨ FadeLength x.fade) ∧
    (s.phase ≠ .running →
      (∀ d, (s.entries.look d).source = 257 ∧ (s.entries.look d).fade = none) ∧
        ∀ l, (s.takes.look l).allChanges = [])

/-- A control port in state LOST holds no claim and authors no tag record (R107). -/
def LostForm (s : State) : Prop :=
  ∀ c, (s.ports.look c).liveness = .lost →
    (∀ i, s.holders.look i ≠ some c) ∧ (∀ n, (s.tags.look n).author ≠ some c)

/-- Whether a slot is EXECUTING. -/
def Slot.isExecuting (q : Slot) : Bool :=
  match q with
  | .executing _ _ => true
  | _ => false

/-- Between events a slot is EXECUTING exactly where its port's save is in progress, and a save in
progress has a torn image in the store (R146, R165). -/
def SaveForm (s : State) : Prop :=
  (∀ c, (s.ports.look c).slot.isExecuting = true ↔ ∃ v, s.saving = some v ∧ v.caller = c) ∧
    (s.saving.isSome = true → s.store = .torn ∧ s.phase = .running)

/-- A condition flag is set at every moment at which its condition holds, and a first-suspect record is
held only while ENTRY_CHECK is set (R90, R158). -/
def ConditionForm (s : State) : Prop :=
  (∀ l, (s.writers.look l).crowding ≠ .none → flagSet s (.crowded l) = true) ∧
    (∀ p, (s.saps.look p).present = false → flagSet s (.portClockLost p) = true) ∧
    (s.firstSuspect.isSome = true → flagSet s .entryCheck = true)

/-- The namings of record `n` among changes. -/
def namedBy (n : TagId) (cs : List Change) : Nat :=
  cs.countP fun x => decide (x.tag = some (.record n))

/-- The namings of record `n`: the entries whose counted reference names it, and the staged and queued
changes whose tag field names it (R140). -/
def namings (s : State) (n : TagId) : Nat :=
  ((List.finRange 256).countP fun d => decide ((s.entries.look d).counted = TagRef.record n)) +
    ((List.finRange 8).map fun l => namedBy n (s.takes.look l).allChanges).sum

/-- Every record's count equals its namings, and a free record has none (R138, R140). -/
def CountForm (s : State) : Prop :=
  ∀ n, (s.tags.look n).count = namings s n ∧
    ((s.tags.look n).content = none → (s.tags.look n).count = 0)

/-! ## Commands on a control port -/

/-- A block that ends on a port is taken: the engine runs and the port's slot is EMPTY or ANSWERED
(R147). -/
abbrev Takes (s : State) (c : CpId) : Prop :=
  s.phase = .running ∧ (s.ports.look c).slot.isExecuting = false

/-- The control port after a taken command has been answered: the transaction is over and has shifted out
the summary byte that was fixed and 40 zeros, the port is LIVE with its watch timer at 0, and the response
waits in the slot (R105, R145, R146, R148). -/
def repliedPort (s : State) (c : CpId) (r : Response) (p : CtrlPort) : CtrlPort :=
  { p with
    slot := .answered { r with overrun := (s.ports.look c).overrunMark }
    overrunMark := false
    transaction := none
    shifted := (fixed s c).summary :: List.replicate 40 0
    liveness := .live
    watchAt := s.now }

/-- The state after a command taken in `s` on port `c` has had its effect, which leaves `t`, and has been
answered. -/
def replied (s : State) (c : CpId) (code tag : Byte) (result : Result) (payload : List Byte)
    (t : State) : State :=
  modPort c (repliedPort s c ⟨code, tag, result, false, payload⟩) t

/-- The response of a port's slot, if one waits there. -/
def waiting (s : State) (c : CpId) : Option Response :=
  match (s.ports.look c).slot with
  | .answered r => some r
  | _ => none

/-- Whether a notice of a port is set. -/
def noticeSet (s : State) (c : CpId) (n : Notice) : Bool := (s.ports.look c).notices.getLsbD n.bit

/-! ## What an event leaves of the control ports -/

/-- A control port that ends as `q` where it would else be `p`: notices among `may` can have been set (R151).
No notice is cleared, no other is set, and everything else of the port, its slot, overrun mark, masks, liveness,
watch timer and transaction among it, is as in `p`. -/
def PortGains (may : List Notice) (p q : CtrlPort) : Prop :=
  q = { p with notices := q.notices } ∧
    ∀ n : Notice, (p.notices.getLsbD n.bit = true → q.notices.getLsbD n.bit = true) ∧
      (n ∉ may → q.notices.getLsbD n.bit = p.notices.getLsbD n.bit)

/-- R152, R163: a port receives FAULT exactly where a flag has been newly set in a group that its fault-notice
mask enables; during start-up the handing waits for the last step. -/
def FaultHanded (s t : State) (k : CpId) : Prop :=
  noticeSet t k .fault = true ↔ noticeSet s k .fault = true ∨
    (s.phase = .running ∧ ∃ f : FaultFlag, flagSet s f = false ∧ flagSet t f = true ∧
      (s.ports.look k).faultMask.getLsbD f.group.bit = true)

/-- What an event that no port has commanded leaves of the fault flags and the control ports (R151, R152,
R156): no flag is cleared; each port receives FAULT as `FaultHanded` says; notices among `may` can be set with
it, and nothing else of any port changes. -/
def TellsPorts (may : List Notice) (s t : State) : Prop :=
  (∀ f : FaultFlag, flagSet s f = true → flagSet t f = true) ∧
    ∀ k, PortGains (.fault :: may) (s.ports.look k) (t.ports.look k) ∧ FaultHanded s t k

/-- R19: the port that holds Ln receives LANE exactly where the lane's state has changed after start-up, and no
other port does. -/
def LaneTold (l : LaneId) (s t : State) : Prop :=
  ∀ k, noticeSet t k .lane = true ↔ noticeSet s k .lane = true ∨
    (s.phase = .running ∧ s.holders.look (laneItem l) = some k ∧
      (t.lanes.look l).state ≠ (s.lanes.look l).state)

/-! ## The reset -/

/-- Every block holds the values of the reset of start-up, at the time of the reset: lanes with their frame
timers (R3, R24), readers (R26), writers (R43), rings (R59), audio ports with lost watch and internal timer
(R62), entries and the scrub position (R78, R87), claims (R96), takes (R114), records (R133), control ports
(R146, R151, R153), flags (R163), store-busy state and guard (R165, R168). Liveness, watch timers and intervals,
which R104 gives in the last step of start-up alone, are as the model has them until then (log 4, log 38). -/
def AtReset (t : State) : Prop :=
  (∀ l, (t.lanes.look l).state = .off ∧ (t.lanes.look l).expected = none ∧
    (t.lanes.look l).detector = .unlocked ∧ (t.lanes.look l).parkMode = .hold ∧
    (t.lanes.look l).coastLimit = 25 ∧ (t.lanes.look l).coastCount = 0 ∧
    (t.lanes.look l).parkCause = none ∧ (t.lanes.look l).relockSeen = false ∧
    (t.lanes.look l).plan = ⟨0, 0⟩ ∧ (t.lanes.look l).pendingPlan = none ∧
    (t.lanes.look l).frameStartAt = t.now ∧ (t.lanes.look l).phaseAt = t.now ∧
    (t.lanes.look l).frameSamples = 1920 ∧ (t.lanes.look l).switchPending = true ∧
    (t.lanes.look l).inputAt = none) ∧
  (∀ l, (t.readers.look l).surplus = false ∧
    (∀ g, (t.readers.look l).groups.look g = ⟨.absent, 0, 0, false⟩) ∧
    (∀ k, (t.readers.look l).tracks.look k = ⟨[], none⟩)) ∧
  (∀ l, (t.writers.look l).linePos = 0 ∧ (t.writers.look l).crowding = .none ∧
    (∀ g, (t.writers.look l).groups.look g = ⟨0, 0⟩) ∧
    (∀ k i, ((t.writers.look l).latched.look k).look i = 0)) ∧
  (∀ a, storeRead t.mem a = 0) ∧ (∀ r, t.writeIndex.look r = 0) ∧ t.toneLevel = -20 ∧
  (∀ p, (t.saps.look p).present = true ∧ (t.saps.look p).regain = 0 ∧
    (t.saps.look p).clockAt = t.now ∧ (t.saps.look p).timerAt = t.now ∧
    (t.saps.look p).frameOpen = false ∧ (t.saps.look p).refLane.val = p.val) ∧
  (∀ d, (t.entries.look d).source = 257 ∧ (t.entries.look d).tag = 0x40 ∧
    (t.entries.look d).counted = .none ∧ (t.entries.look d).delay = 64 ∧
    (t.entries.look d).readIndex = 0 ∧ (t.entries.look d).fade = none ∧
    (t.entries.look d).nudge = none ∧ (t.entries.look d).health = .good ∧
    (t.entries.look d).matches = true) ∧ t.scrubPos = 0 ∧
  (∀ i, t.holders.look i = none) ∧
  (∀ l, (∀ c, (t.takes.look l).staging.look c = []) ∧ (t.takes.look l).queue = [] ∧
    (t.takes.look l).closureCounter = 0 ∧ (t.takes.look l).timer = .idle ∧
    (t.takes.look l).holdCommand = false ∧ (t.takes.look l).holdPark = false) ∧
  (∀ n, t.tags.look n = ⟨none, 0⟩) ∧
  (∀ c, (t.ports.look c).slot = .empty ∧ (t.ports.look c).overrunMark = false ∧
    (t.ports.look c).notices = 0 ∧ (t.ports.look c).noticeMask = BitVec.allOnes 7 ∧
    (t.ports.look c).faultMask = BitVec.allOnes 6 ∧ (t.ports.look c).liveness = .silent ∧
    (t.ports.look c).watchAt = t.now) ∧
  t.lateMs = 1000 ∧ t.lostSeconds = 10 ∧
  t.flags = 0 ∧ t.firstSuspect = none ∧ t.lineMask = BitVec.allOnes 6 ∧ t.saving = none ∧
  t.saveGuard = false

end Sys2Proof.Machine
end

