-- ==== Sys2Proof/WellFormed.lean ====
section
/-! DEFINITION. Which commands are events that the outside can bring: the operands that the rules of a row
fix. Every command has a meaning in `exec`, well-formed or not. -/

namespace Sys2Proof

open Machine

/-- The words found at a lead pair begin with it (R27, R178). -/
def beginsWithPair (words : List LaneWord) : Bool := words.take 2 == [leadFirst, leadSecond]

/-- The blanking of a line holds at least four cells of four sets, 44 words each: the smallest room of
any class (R2, R45). -/
def blankingHoldsRoom (blanking : List LaneWord) : Bool := decide (176 ≤ blanking.length)

/-- Whether the operands of a command are ones its row admits. -/
def Instr.wellFormed : Instr → Bool
  | .soundCell _ words => beginsWithPair words
  | .cellLine _ line => !line.cellRegion || blankingHoldsRoom line.blanking
  | .summaryPoll _ bytes => kindOf bytes == .none
  | .badBlock _ bytes => (blockFault bytes).isSome
  | .undefinedCommand _ code _ => (payloadLength code).isNone
  | .restartRetain _ _ mode => mode != 1
  | _ => true

end Sys2Proof
end

