-- ==== Sys2Proof/Certificates/Slice0/Obligations.lean ====
section
/-! DEFINITION. The statements for the provers. Each says in its docstring which rule of the spec, or
which choice of the model's, it states. -/

open Sys2Proof Sys2Proof.Machine

/-! ## The step and the reset -/

/-- The command at the front of the queue runs on the state with the queue's rest. The queue is the
model's (log 1). -/
def Obligations.StepRunsFrontCommand : Prop :=
  ∀ (s : State) (c : Instr) (rest : List Instr), s.pending = c :: rest →
    step s = exec c { s with pending := rest }

/-- On an empty queue one tick passes where nothing is due, and otherwise one event that is due comes to
the front; which one is free. The model's choices (log 1, log 3). -/
def Obligations.IdleStepIsTheClock : Prop :=
  ∀ s : State, s.pending = [] →
    (due s = [] → step s = .next { s with now := s.now + 1 }) ∧
    (due s ≠ [] → ∃ e ∈ due s,
      step s = .next { s with pending := [e], choices := s.choices + 1 })

/-- The state right after reset holds the reset values of every block's table, with start-up in progress
and no command waiting. The straps, the store's content and what R104 gives in the last step of start-up alone
(liveness, watch timer and intervals) are the model's choices (log 4, log 5, log 38). -/
def Obligations.ResetStateHoldsResetValues : Prop :=
  AtReset State.reset ∧ State.reset.phase = .starting ∧ State.reset.pending = [] ∧
    State.reset.senior = none ∧ State.reset.store = .nothing

/-- Every form that steps keep holds right after reset. -/
def Obligations.FormsHoldAtReset : Prop :=
  StoreForm State.reset ∧ LanesForm State.reset ∧ TakesForm State.reset ∧ ClaimsForm State.reset ∧
    EntriesForm State.reset ∧ LostForm State.reset ∧ SaveForm State.reset ∧
    ConditionForm State.reset ∧ CountForm State.reset

/-! ## What every step keeps -/

/-- The Sample Store keeps its canonical form, and a port's 16 sources one write index (R63). -/
def Obligations.EveryStepKeepsStoreForm : Prop :=
  ∀ s t : State, StoreForm s → step s = .next t → StoreForm t

/-- R3, R14, R16, R24: expected class, park cause, PARK hold, coast limit and count stay in form. R115,
R120, R124: the limits of pool, batch and queue hold, and the timer is COUNTING exactly while the queue
holds a batch, at no more than the head's delay. R123: a head that waits for the next switch point after a
CANCEL stands at count 0 (log 39). -/
def Obligations.EveryStepKeepsLanesAndTakes : Prop :=
  (∀ s t : State, LanesForm s → step s = .next t → LanesForm t) ∧
  (∀ s t : State, TakesForm s → step s = .next t → TakesForm t)

/-- R117, R128: every waiting change names a destination whose claim its port holds, on that
destination's timing lane, once in its batch. R138, R140: every record's reference count equals its
namings, and a free record's is 0. -/
def Obligations.EveryStepKeepsClaimsAndCounts : Prop :=
  (∀ s t : State, ClaimsForm s → step s = .next t → ClaimsForm t) ∧
  (∀ s t : State, ClaimsForm s → CountForm s → step s = .next t → CountForm t)

/-- R78: a FADING entry is GOOD with its position below its length, and a pending nudge is in range. R92,
R163: while the engine is not running, every entry is STEADY on S257 and no change waits. -/
def Obligations.EveryStepKeepsEntriesForm : Prop :=
  ∀ s t : State, EntriesForm s → step s = .next t → EntriesForm t

/-- R107: a control port in state LOST holds no claim and authors no tag record. R146, R165: a slot is
EXECUTING exactly for the port whose save is in progress. R90, R158: a condition flag is set while its
condition holds, and a first-suspect record is held only while ENTRY_CHECK is set. -/
def Obligations.EveryStepKeepsSlotAndFlagForms : Prop :=
  (∀ s t : State, LostForm s → step s = .next t → LostForm t) ∧
  (∀ s t : State, SaveForm s → step s = .next t → SaveForm t) ∧
  (∀ s t : State, ConditionForm s → step s = .next t → ConditionForm t)

/-! ## Start-up and restart -/

/-- R97, R169: power-up with RESET_N high, and the release of RESET_N after it was held low, sample the straps
and reset every block; the store's content stays. While RESET_N is low the engine is held at the reset, from
power-up on or from the fall of RESET_N, with every ALERT line and the FAULT line released. R167: a supply
failure leaves nothing but the store's content, torn where a save was in progress. The model's choices, which no
rule states: without supply RESET_N_LOW changes the pin's level alone (log 21); RESET_N_RELEASE where the engine
is not held changes the pin's level alone, and POWER_UP acts in every phase (log 18); and AtReset's values of
the intervals (log 4) and of the liveness and watch timers (log 38). -/
def Obligations.ResetsKeepOnlyTheStore : Prop :=
  (∀ (straps : BitVec 2) (s : State), ∃ t : State,
     (s.resetLow = false → exec (.powerUp straps) s = .next t) ∧
     (s.phase = .heldReset → exec (.resetNRelease straps) s = .next t) ∧
     AtReset t ∧ t.phase = .starting ∧ t.resetLow = false ∧ t.resetAt = s.now ∧ t.store = s.store ∧
     t.pending = s.pending ∧ t.now = s.now ∧
     (straps = 0b00 → t.senior = none) ∧ (straps = 0b01 → t.senior = some 0) ∧
     (straps = 0b10 → t.senior = some 1) ∧ (straps = 0b11 → t.senior = some 2)) ∧
  (∀ (straps : BitVec 2) (s : State), ∃ t : State,
     (s.resetLow = true → exec (.powerUp straps) s = .next t) ∧
     (s.phase ≠ .unpowered → exec .resetNLow s = .next t) ∧
     AtReset t ∧ t.phase = .heldReset ∧ t.resetLow = true ∧ t.store = s.store ∧
     t.pending = s.pending ∧ t.now = s.now ∧ faultLine t = false ∧ (∀ c, alertLine t c = false) ∧
     (SaveForm s → s.saving.isSome = true → t.store = .torn)) ∧
  (∀ (straps : BitVec 2) (s : State),
     (s.phase = .unpowered → exec .resetNLow s = .next { s with resetLow := true }) ∧
     (s.phase ≠ .heldReset →
       exec (.resetNRelease straps) s = .next { s with resetLow := false }) ∧
     (∃ t, exec .powerLoss s = .next t ∧ AtReset t ∧ t.phase = .unpowered ∧ t.store = s.store ∧
       t.resetLow = s.resetLow ∧ t.pending = s.pending ∧ t.now = s.now ∧
       (SaveForm s → s.saving.isSome = true → t.store = .torn)))

/-- R170: what a start-up loads and the outcome it records; the check itself is a free value (log 8).
R24, R93, R110, R143, R163, R169: the load puts each part of the scene in its block, aligns every
entry, and ends start-up with every port SILENT and RESTARTED set, and FAULT where a flag stands in a group that its
mask enables (R152); nothing else of a port changes. An entry is loaded with the tag reference
of its image, with NONE where the image holds the named record free, and its counted reference is the one
loaded. -/
def Obligations.SceneLoadEndsStartup : Prop :=
  (chosenScene .nothing = (defaultScene, .defaultNoImage) ∧
     chosenScene .torn = (defaultScene, .defaultCheckFailed) ∧
     ∀ (x : Scene) (check : BitVec 32),
       (check = Config.sceneCheck x → x.inRange = true →
         chosenScene (.image x check) = (x, .image)) ∧
       (check ≠ Config.sceneCheck x ∨ x.inRange = false →
         chosenScene (.image x check) = (defaultScene, .defaultCheckFailed))) ∧
  (∀ (s : State) (x : Scene) (o : LoadOutcome), s.phase = .starting → chosenScene s.store = (x, o) →
     ∃ t, exec .sceneLoad s = .next t ∧ t.phase = .running ∧ t.loadOutcome = o ∧
       t.holders = x.claims ∧ t.toneLevel = x.toneLevel ∧ t.lateMs = x.lateMs ∧
       t.lostSeconds = x.lostSeconds ∧ t.lineMask = x.lineMask ∧ t.saveGuard = x.saveGuard ∧
       t.senior = s.senior ∧ t.store = s.store ∧ t.now = s.now ∧ t.scrubPos = 0 ∧
       (∀ p, (t.saps.look p).refLane = x.refLanes.look p) ∧
       (∀ l, (t.lanes.look l).state = (if (x.lanes.look l).enabled then .seek else .off) ∧
         (t.lanes.look l).expected = (x.lanes.look l).expected ∧
         (t.lanes.look l).plan = (x.lanes.look l).plan ∧
         (t.lanes.look l).pendingPlan = none ∧
         (t.lanes.look l).parkMode = (x.lanes.look l).parkMode ∧
         (t.lanes.look l).coastLimit = (x.lanes.look l).coastLimit ∧
         (t.lanes.look l).frameStartAt = s.now ∧ (t.lanes.look l).switchPending = true) ∧
       (∀ d, (t.entries.look d).source = (x.patch.look d).source ∧
         (t.entries.look d).delay = (x.patch.look d).delay ∧
         (t.entries.look d).fade = none ∧ (t.entries.look d).nudge = none ∧
         (t.entries.look d).health = .good ∧ (t.entries.look d).matches = true ∧
         (t.entries.look d).readIndex =
           alignedIndex t (t.entries.look d).src (t.entries.look d).delayUsed) ∧
       (∀ d code, code = (x.patch.look d).tag →
         (∀ n : TagId, code.toNat = n.val →
           ((x.tags.look n).isSome = true →
             (t.entries.look d).tag = code ∧ (t.entries.look d).counted = .record n) ∧
           (x.tags.look n = none →
             (t.entries.look d).tag = 0x40 ∧ (t.entries.look d).counted = .none)) ∧
         (code = 0x40 → (t.entries.look d).tag = 0x40 ∧ (t.entries.look d).counted = .none) ∧
         (code = 0x41 → (t.entries.look d).tag = 0x41 ∧ (t.entries.look d).counted = .pass)) ∧
       (∀ n, (t.tags.look n).content = x.tags.look n ∧
         (t.tags.look n).count = (List.finRange 256).countP
           fun d => decide ((t.entries.look d).counted = TagRef.record n)) ∧
       (∀ c, PortGains [.restarted, .fault]
           { s.ports.look c with liveness := .silent, watchAt := s.now } (t.ports.look c) ∧
         noticeSet t c .restarted = true ∧
         (noticeSet t c .fault = true ↔ noticeSet s c .fault = true ∨
           ∃ f : FaultFlag, flagSet t f = true ∧
             (s.ports.look c).faultMask.getLsbD f.group.bit = true)) ∧
       (o = .defaultCheckFailed → flagSet t .sceneLoadFail = true))

/-- R171: RESTART FULL from the senior port begins start-up afresh, with no response placed. R164, R172:
RESTART RETAIN empties the slots, sets RESTARTED alone, clears the fault flags but for the conditions that
hold, makes every port SILENT, answers OK and keeps everything else. Either is refused while a save is in
progress. A mode that is neither RETAIN nor FULL (R175) is refused with BAD_ARG, before the caller's seniority
and the save are looked at. -/
def Obligations.RestartFullAndRetain : Prop :=
  (∀ (c : CpId) (tag : Byte) (straps : BitVec 2) (s : State), Takes s c → s.senior = some c →
     (s.saving = none → ∃ t, exec (.restartFull c tag straps) s = .next t ∧ AtReset t ∧
       t.phase = .starting ∧ t.senior = seniorOf straps ∧ t.store = s.store ∧ t.now = s.now ∧
       t.pending = s.pending) ∧
     (s.saving.isSome = true →
       exec (.restartFull c tag straps) s = .next (replied s c 0x4A tag .storeBusy [] s))) ∧
  (∀ (c : CpId) (tag : Byte) (s : State), Takes s c → s.senior = some c →
     (s.saving = none → ∃ t, exec (.restartRetain c tag 0) s = .next t ∧
       t = { s with ports := t.ports, flags := t.flags, firstSuspect := none } ∧
       waiting t c = some ⟨0x4A, tag, .ok, false, []⟩ ∧
       (∀ k, k ≠ c → (t.ports.look k).slot = .empty ∧
         (t.ports.look k).transaction = (s.ports.look k).transaction ∧
         (t.ports.look k).shifted = (s.ports.look k).shifted) ∧
       (∀ k, (t.ports.look k).overrunMark = false ∧ (t.ports.look k).liveness = .silent ∧
         (t.ports.look k).watchAt = s.now ∧
         (t.ports.look k).noticeMask = (s.ports.look k).noticeMask ∧
         (t.ports.look k).faultMask = (s.ports.look k).faultMask ∧
         (∀ n, noticeSet t k n = true ↔ n = .restarted ∨
           (n = .fault ∧ ∃ f ∈ conditionFlags s,
             (s.ports.look k).faultMask.getLsbD f.group.bit = true))) ∧
       (∀ f, flagSet t f = true ↔ f ∈ conditionFlags s)) ∧
     (s.saving.isSome = true →
       exec (.restartRetain c tag 0) s = .next (replied s c 0x4A tag .storeBusy [] s))) ∧
  (∀ (c : CpId) (tag mode : Byte) (s : State), Takes s c → mode ≠ 0 → mode ≠ 1 →
     exec (.restartRetain c tag mode) s = .next (replied s c 0x4A tag .badArg [] s))

/-! ## Control ports -/

/-- R105, R155: a KEEPALIVE that is taken makes the port LIVE with its watch timer at 0, is answered OK,
and acts on nothing else. -/
def Obligations.KeepaliveRefreshesItsPortAlone : Prop :=
  ∀ (c : CpId) (tag : Byte) (s : State), Takes s c →
    exec (.keepalive c tag) s = .next (replied s c 0x01 tag .ok [] s)

/-- R162: the group summary follows the flags. R161, R163, R169: the FAULT line follows the flags and the line
mask, throughout start-up too, and is released without supply and while RESET_N is low. R153, R169: an ALERT line
follows the port's notices and mask, and is released during start-up and reset. -/
def Obligations.LinesFollowFlagsAndMasks : Prop :=
  ∀ s : State,
    (∀ g : FaultGroup, (groupSummary s).getLsbD g.bit = true ↔
      ∃ f : FaultFlag, f.group = g ∧ flagSet s f = true) ∧
    (awake s = true → (faultLine s = true ↔
      ∃ f : FaultFlag, flagSet s f = true ∧ s.lineMask.getLsbD f.group.bit = true)) ∧
    (awake s = true ↔ s.phase = .starting ∨ s.phase = .running) ∧
    (awake s = false → faultLine s = false) ∧
    (∀ c, s.phase = .running → (alertLine s c = true ↔
      ∃ n : Notice, noticeSet s c n = true ∧ (s.ports.look c).noticeMask.getLsbD n.bit = true)) ∧
    (∀ c, s.phase ≠ .running → alertLine s c = false)

/-- R154, R177: what READ STATUS answers; the caller's own liveness reads LIVE, and nothing but its port
changes. -/
def Obligations.ReadStatusAnswers : Prop :=
  ∀ (c : CpId) (tag : Byte) (s : State), Takes s c →
    exec (.readStatus c tag) s = .next (replied s c 0x02 tag .ok
      ([(s.ports.look c).notices.setWidth 8, (s.ports.look c).noticeMask.setWidth 8,
          (s.ports.look c).faultMask.setWidth 8] ++
        ((List.finRange 3).map fun k =>
          if k = c then 1 else livenessCode (s.ports.look k).liveness) ++
        [cpCode s.senior, groupSummary s, loadOutcomeCode s.loadOutcome, boolByte s.saving.isSome,
          boolByte s.saveGuard]) s)

/-- R153, R175: CLEAR NOTICES clears the named notices of the caller, SET NOTICE MASK replaces both its
masks; a bit that names no member is refused with BAD_ARG. -/
def Obligations.NoticeCommandsActOnTheCaller : Prop :=
  ∀ (c : CpId) (tag n m : Byte) (s : State), Takes s c →
    (n.getLsbD 7 = false → exec (.clearNotices c tag n) s =
      .next (replied s c 0x03 tag .ok [((s.ports.look c).notices &&& ~~~(n.setWidth 7)).setWidth 8]
        (modPort c (fun p => { p with notices := p.notices &&& ~~~(n.setWidth 7) }) s))) ∧
    (n.getLsbD 7 = true → exec (.clearNotices c tag n) s =
      .next (replied s c 0x03 tag .badArg [] s)) ∧
    (n.getLsbD 7 = false → m.getLsbD 6 = false → m.getLsbD 7 = false →
      exec (.setNoticeMask c tag n m) s = .next (replied s c 0x04 tag .ok []
        (modPort c (fun p => { p with noticeMask := n.setWidth 7, faultMask := m.setWidth 6 }) s))) ∧
    (n.getLsbD 7 = true ∨ m.getLsbD 6 = true ∨ m.getLsbD 7 = true →
      exec (.setNoticeMask c tag n m) s = .next (replied s c 0x04 tag .badArg [] s))

/-- R145, R149, R173: the falling edge of chip select fixes the summary byte and the response; the
transaction byte selects the kind, 5Ch WRITE BLOCK and A3h READ RESPONSE; a transaction of neither kind shifts
the summary byte out, then a zero byte for each byte after the transaction byte, and changes nothing else. That
SUMMARY_POLL with a byte that selects a kind does nothing is the model's choice (log 18). -/
def Obligations.ChipSelectFixesWhatIsShiftedOut : Prop :=
  ∀ (c : CpId) (s : State), awake s = true →
    (∃ t u, exec (.chipSelectFall c) s = .next
        (modPort c (fun p => { p with transaction := some t }) s) ∧
      u = t.summary ∧
      (u.getLsbD 0 = true ↔ (s.ports.look c).slot.isExecuting = true) ∧
      (u.getLsbD 1 = true ↔ (waiting s c).isSome = true) ∧
      (u.getLsbD 2 = true ↔ s.phase = .starting) ∧
      (u.getLsbD 3 = true ↔ alertLine s c = true) ∧
      u.extractLsb' 4 4 = 0 ∧
      (t.waiting = true ↔ (waiting s c).isSome = true) ∧
      (∀ r, waiting s c = some r → t.response = r) ∧
      ((s.ports.look c).slot = .empty → t.response = ⟨0, 0, .noCommand, false, []⟩) ∧
      (∀ code tag, (s.ports.look c).slot = .executing code tag →
        t.response = ⟨code, tag, .pending, false, []⟩)) ∧
    (∀ (straps : BitVec 2) (bytes : List Byte),
      decodeTransaction c straps (0x5C :: bytes) = decodeBlock c straps bytes ∧
      decodeTransaction c straps (0xA3 :: bytes) = .readResponse c bytes.length ∧
      (bytes.head? ≠ some 0x5C → bytes.head? ≠ some 0xA3 →
        decodeTransaction c straps bytes = .summaryPoll c bytes)) ∧
    (∀ (bytes : List Byte) (t : Transaction), (s.ports.look c).transaction = some t →
      (bytes.head? ≠ some 0x5C → bytes.head? ≠ some 0xA3 →
        exec (.summaryPoll c bytes) s = .next (modPort c (fun p => { p with
          transaction := none
          shifted := t.summary :: List.replicate (bytes.length - 1) 0 }) s)) ∧
      (bytes.head? = some 0x5C ∨ bytes.head? = some 0xA3 →
        exec (.summaryPoll c bytes) s = .next s))

/-- R145, R146, R149: a read transaction shifts out the summary byte and the response that were fixed; a waiting
response that is read whole empties the slot, and any other read leaves it, one of a response that has left the
slot since chip select fell among them. What follows the 40 bytes of a response is not recorded, the model's
choice (log 40). -/
def Obligations.ReadResponseEmptiesTheSlotWhenWhole : Prop :=
  ∀ (c : CpId) (k : Nat) (t : Transaction) (s : State), awake s = true →
    (s.ports.look c).transaction = some t →
    (t.waiting = true → 40 ≤ k → (s.ports.look c).slot = .answered t.response →
      exec (.readResponse c k) s = .next (modPort c (fun p => { p with
        slot := .empty, transaction := none
        shifted := t.summary :: t.response.bytes.take k }) s)) ∧
    (t.waiting = false ∨ k < 40 ∨ (s.ports.look c).slot ≠ .answered t.response →
      exec (.readResponse c k) s = .next (modPort c (fun p => { p with
        transaction := none, shifted := t.summary :: t.response.bytes.take k }) s))

/-- R147, R176: a block that fails its check is answered BAD_BLOCK with the first failing case, sets
BLOCK_ERR and refreshes no liveness; every other port stays but for FAULT (R152). R148: a block on an EXECUTING slot
is discarded and the overrun mark set. R150: STARTING answers a block that ends during start-up. R147: a code that
names no command is taken and refused with BAD_ARG. R145: each shifts out the summary byte that was fixed and a zero
byte for each byte of the block. That a code or tag byte which a short block does not have is echoed as 0 is the
model's reading for STARTING too (log 27). -/
def Obligations.UntakenBlocksAreAnswered : Prop :=
  (∀ (c : CpId) (bytes : List Byte) (s : State),
     (Takes s c → (blockFault bytes).isSome = true →
       ∃ t, exec (.badBlock c bytes) s = .next t ∧
         t = { s with ports := t.ports, flags := t.flags } ∧
         (∀ k : Byte, waiting t c = some
             ⟨bytes.getD 0 0, bytes.getD 1 0, .badBlock, false, [k]⟩ ↔
           (k = 1 ∧ bytes.length ≠ 40) ∨
           (k = 2 ∧ bytes.length = 40 ∧ byteSum bytes % 256 ≠ 255) ∨
           (k = 3 ∧ bytes.length = 40 ∧ byteSum bytes % 256 = 255)) ∧
         flagSet t (.blockErr c) = true ∧
         (∀ f, f ≠ .blockErr c → flagSet t f = flagSet s f) ∧
         PortGains [.fault] { s.ports.look c with
           slot := (t.ports.look c).slot, transaction := none
           shifted := (fixed s c).summary :: List.replicate bytes.length 0 } (t.ports.look c) ∧
         (∀ k, k ≠ c → PortGains [.fault] (s.ports.look k) (t.ports.look k)) ∧
         (∀ k, FaultHanded s t k)) ∧
     (s.phase = .running → (s.ports.look c).slot.isExecuting = true →
       exec (.badBlock c bytes) s = .next (modPort c (fun p => { p with
         overrunMark := true, transaction := none
         shifted := (fixed s c).summary :: List.replicate bytes.length 0 }) s))) ∧
  (∀ (c : CpId) (bytes : List Byte) (code tag : Byte) (s : State),
     (s.phase = .running → (s.ports.look c).slot.isExecuting = true →
       exec (.overrun c bytes) s = .next (modPort c (fun p => { p with
         overrunMark := true, transaction := none
         shifted := (fixed s c).summary :: List.replicate bytes.length 0 }) s)) ∧
     (s.phase = .starting →
       exec (.starting c bytes) s = .next (modPort c (fun p => { p with
         slot := .answered ⟨bytes.getD 0 0, bytes.getD 1 0, .starting, false, []⟩
         transaction := none
         shifted := (fixed s c).summary :: List.replicate bytes.length 0 }) s)) ∧
     (Takes s c → exec (.undefinedCommand c code tag) s =
       .next (replied s c code tag .badArg [] s)))

/-! ## Claims and liveness -/

/-- A range of claim items that a command may name: 1 to `most` items, all within 0..263 (R98, R103). -/
abbrev ItemRange (most : Nat) (first : BitVec 16) (count : Byte) : Prop :=
  1 ≤ count.toNat ∧ count.toNat ≤ most ∧ first.toNat + count.toNat ≤ 264

/-- The item `i` lies in the range of `count` items from `first` on. -/
abbrev InItems (first : BitVec 16) (count : Byte) (i : ItemId) : Prop :=
  first.toNat ≤ i.val ∧ i.val < first.toNat + count.toNat

/-- The items of the range for which `p` holds, counted in one byte. -/
def countItems (first : BitVec 16) (count : Byte) (p : ItemId → Bool) : Byte :=
  BitVec.ofNat 8 ((List.finRange 264).countP fun i => decide (InItems first count i) && p i)

/-- The liveness intervals that SET WATCH may name (R109). -/
abbrev WatchRange (late : BitVec 16) (lost : Byte) : Prop :=
  100 ≤ late.toNat ∧ late.toNat ≤ 5000 ∧ late.toNat % 100 = 0 ∧ 1 ≤ lost.toNat ∧ lost.toNat ≤ 60 ∧
    late.toNat < lost.toNat * 1000

/-- The changes of a port on a lane, staged or queued. -/
def changesBy (t : TakeUnit) (c : CpId) : List Change :=
  t.staging.look c ++ t.queue.flatMap fun b => if b.owner = c then b.changes else []

/-- Every change of a port `k` on a lane `l` that `gone k l` names has been withdrawn, and no other
(R101, R127, R128): it has left its batch, a batch left empty has left the queue, the timer is loaded afresh
where the head left, the port has WITHDRAWN, and the tag counts follow. -/
def Withdrawn (s t : State) (gone : CpId → LaneId → Change → Bool) : Prop :=
  (∀ k, noticeSet t k .withdrawn = true ↔
    noticeSet s k .withdrawn = true ∨ ∃ l, ∃ x ∈ changesBy (s.takes.look l) k, gone k l x = true) ∧
  (ClaimsForm s → CountForm s → CountForm t) ∧
  ∀ l,
    let u := s.takes.look l
    let u' := t.takes.look l
    let left (b : Batch) : List Change := b.changes.filter fun x => !gone b.owner l x
    (∀ k, u'.staging.look k = (u.staging.look k).filter fun x => !gone k l x) ∧
    u'.queue = (u.queue.map fun b => { b with changes := left b }).filter
      (fun b => !b.changes.isEmpty) ∧
    u'.closureCounter = u.closureCounter ∧ u'.holdPark = u.holdPark ∧
    ((∀ b, u.queue.head? = some b → left b ≠ []) →
      u'.timer = u.timer ∧ u'.holdCommand = u.holdCommand ∧ u'.freshHead = u.freshHead) ∧
    (∀ b, u.queue.head? = some b → left b = [] →
      match u'.queue with
      | [] => u'.timer = .idle ∧ u'.holdCommand = false ∧ u'.freshHead = false
      | h :: _ => u'.timer = .counting h.delay ∧ u'.holdCommand = u.holdCommand ∧
          (u'.freshHead = true → u.freshHead = true))

/-- The ports that `dead` names have become LOST, as far as the claims, the waiting changes and the records go
(R101, R107, R127, R128): every item such a port held is FREE, and it has CLAIM_LOST where it held one; its changes
for those destinations are withdrawn, with WITHDRAWN where one was; its records are authorless, with their content
kept. Every claim, waiting change and record of any other port stays. -/
def LossesTaken (dead : CpId → Bool) (s t : State) : Prop :=
  (∀ i, t.holders.look i = match s.holders.look i with
    | none => none
    | some k => if dead k then none else some k) ∧
  (TakesForm s → Withdrawn s t fun k l x => dead k && decide (timingLane s x.dest = l ∧
    s.holders.look (destItem x.dest) = some k)) ∧
  (∀ n, (t.tags.look n).content = (s.tags.look n).content.map fun x =>
    { x with author := match x.author with
        | none => none
        | some k => if dead k then none else some k }) ∧
  (∀ k, noticeSet t k .claimLost = true ↔ noticeSet s k .claimLost = true ∨
    dead k = true ∧ ∃ i, s.holders.look i = some k)

/-- R98: CLAIM takes every FREE item of its range, or nothing and names the lowest item that another port
holds; a range that is not one to 24 items within 0..263 is refused with BAD_ARG. -/
def Obligations.ClaimIsAllOrNothing : Prop :=
  ∀ (c : CpId) (tag : Byte) (first : BitVec 16) (count : Byte) (s : State), Takes s c →
    (ItemRange 24 first count →
      (∀ i, InItems first count i → s.holders.look i = none ∨ s.holders.look i = some c) →
      ∃ h : Table (Option CpId) 264,
        exec (.claim c tag first count) s = .next (replied s c 0x08 tag .ok
          [countItems first count fun i => decide (s.holders.look i = none)]
          { s with holders := h }) ∧
        ∀ i, h.look i = if InItems first count i then some c else s.holders.look i) ∧
    (∀ (i : ItemId) (h : CpId), ItemRange 24 first count → InItems first count i →
      s.holders.look i = some h → h ≠ c →
      (∀ j, InItems first count j → j < i →
        s.holders.look j = none ∨ s.holders.look j = some c) →
      exec (.claim c tag first count) s =
        .next (replied s c 0x08 tag .heldElsewhere (numBytes i.val ++ [cpCode (some h)]) s)) ∧
    (¬ ItemRange 24 first count →
      exec (.claim c tag first count) s = .next (replied s c 0x08 tag .badArg [] s))

/-- R99, R101, R127, R128: RELEASE frees the items of the range that the caller holds and withdraws its
changes for the destinations among them, with WITHDRAWN where one was; its other changes, the other ports and
their changes stay, and the tag records keep their content. -/
def Obligations.ReleaseFreesAndWithdraws : Prop :=
  ∀ (c : CpId) (tag : Byte) (first : BitVec 16) (count : Byte) (s : State), Takes s c →
    (ItemRange 24 first count →
      ∃ t, exec (.release c tag first count) s = .next t ∧
        t = { s with
          holders := t.holders, takes := t.takes, tags := t.tags, ports := t.ports } ∧
        (∀ i, t.holders.look i =
          if InItems first count i ∧ s.holders.look i = some c then none
          else s.holders.look i) ∧
        (TakesForm s → Withdrawn s t fun k l x => decide (k = c ∧ timingLane s x.dest = l ∧
          InItems first count (destItem x.dest) ∧ s.holders.look (destItem x.dest) = some c)) ∧
        (∀ n, (t.tags.look n).content = (s.tags.look n).content) ∧
        PortGains [.withdrawn] (repliedPort s c ⟨0x09, tag, .ok, false,
          [countItems first count fun i => decide (s.holders.look i = some c)]⟩
          (s.ports.look c)) (t.ports.look c) ∧
        (∀ k, k ≠ c → t.ports.look k = s.ports.look k)) ∧
    (¬ ItemRange 24 first count →
      exec (.release c tag first count) s = .next (replied s c 0x09 tag .badArg [] s))

/-- R100, R101, R127, R128: SEIZE from the senior port takes every item of the range; each port that lost one
receives CLAIM_LOST, and its changes for the lost destinations are withdrawn, with WITHDRAWN where one was;
every other change stays; the patch table, the lanes and the samples are not touched. -/
def Obligations.SeizeTakesEveryItem : Prop :=
  ∀ (c : CpId) (tag : Byte) (first : BitVec 16) (count : Byte) (s : State), Takes s c →
    (¬ ItemRange 24 first count →
      exec (.seize c tag first count) s = .next (replied s c 0x0A tag .badArg [] s)) ∧
    (s.senior = some c → ItemRange 24 first count →
      ∃ t, exec (.seize c tag first count) s = .next t ∧
        t = { s with
          holders := t.holders, takes := t.takes, tags := t.tags, ports := t.ports } ∧
        (∀ i, t.holders.look i =
          if InItems first count i then some c else s.holders.look i) ∧
        (TakesForm s → Withdrawn s t fun k l x => decide (k ≠ c ∧ timingLane s x.dest = l ∧
          InItems first count (destItem x.dest) ∧ s.holders.look (destItem x.dest) = some k)) ∧
        (∀ n, (t.tags.look n).content = (s.tags.look n).content) ∧
        t.ports.look c = repliedPort s c ⟨0x0A, tag, .ok, false,
          [countItems first count fun i =>
              decide (s.holders.look i ≠ none ∧ s.holders.look i ≠ some c),
            countItems first count fun i => decide (s.holders.look i = none)]⟩
          (s.ports.look c) ∧
        (∀ k, k ≠ c → PortGains [.claimLost, .withdrawn] (s.ports.look k) (t.ports.look k) ∧
          (noticeSet t k .claimLost = true ↔ noticeSet s k .claimLost = true ∨
            ∃ i, InItems first count i ∧ s.holders.look i = some k) ∧
          ((∀ i, InItems first count i → s.holders.look i ≠ some k) →
            t.ports.look k = s.ports.look k)))

/-- R97: a command reserved to the senior port, with its fields in range (R98, R109), is refused with
NOT_SENIOR from any other port and changes nothing but its own port. -/
def Obligations.SeniorCommandsAreRefusedToOthers : Prop :=
  ∀ (c : CpId) (tag a b : Byte) (v : BitVec 16) (straps : BitVec 2) (s : State), Takes s c →
    s.senior ≠ some c →
    (ItemRange 24 v a →
      exec (.seize c tag v a) s = .next (replied s c 0x0A tag .notSenior [] s)) ∧
    (WatchRange v a →
      exec (.setWatch c tag v a) s = .next (replied s c 0x0C tag .notSenior [] s)) ∧
    (v.toNat < 256 →
      exec (.checkTest c tag v) s = .next (replied s c 0x2A tag .notSenior [] s)) ∧
    (a.toNat < 4 → b.toNat < 8 →
      exec (.setPortRef c tag a b) s = .next (replied s c 0x31 tag .notSenior [] s)) ∧
    (-30 ≤ a.toInt → a.toInt ≤ -10 →
      exec (.setTone c tag a) s = .next (replied s c 0x32 tag .notSenior [] s)) ∧
    (a.toNat < 64 →
      exec (.setLineMask c tag a) s = .next (replied s c 0x42 tag .notSenior [] s)) ∧
    (a.toNat < 2 →
      exec (.setGuard c tag a) s = .next (replied s c 0x49 tag .notSenior [] s)) ∧
    exec (.restartFull c tag straps) s = .next (replied s c 0x4A tag .notSenior [] s) ∧
    exec (.restartRetain c tag 0) s = .next (replied s c 0x4A tag .notSenior [] s)

/-- R103, R130, R177: what READ CLAIMS and READ QUEUE answer; nothing but the caller's port changes. That
the owner's half byte of READ QUEUE carries the holder code is the model's reading (log 34). -/
def Obligations.ReadClaimsAndReadQueueAnswer : Prop :=
  ∀ (c : CpId) (tag a : Byte) (first : BitVec 16) (s : State), Takes s c →
    (ItemRange 32 first a → exec (.readClaims c tag first a) s =
      .next (replied s c 0x0B tag .ok (bytesOf16 first ++ [a] ++
        ((List.finRange 264).filter fun i => decide (InItems first a i)).map fun i =>
          cpCode (s.holders.look i)) s)) ∧
    (¬ ItemRange 32 first a → exec (.readClaims c tag first a) s =
      .next (replied s c 0x0B tag .badArg [] s)) ∧
    (∀ l : LaneId, laneField a = some l → exec (.readQueue c tag a) s =
      .next (replied s c 0x26 tag .ok
        ((match (s.takes.look l).timer with
            | .idle => [0, 0]
            | .counting n => [1, BitVec.ofNat 8 n]) ++
          [(if (s.takes.look l).holdCommand then 1 else 0) |||
              (if (s.takes.look l).holdPark then 2 else 0),
            BitVec.ofNat 8 (s.takes.look l).queue.length, BitVec.ofNat 8 (s.takes.look l).poolCount,
            BitVec.ofNat 8 ((s.takes.look l).staging.look c).length] ++
          (s.takes.look l).queue.flatMap fun b =>
            [BitVec.ofNat 8 (16 * (b.owner.val + 1) + b.changes.length), b.closure,
              BitVec.ofNat 8 b.delay]) s)) ∧
    (8 ≤ a.toNat → exec (.readQueue c tag a) s = .next (replied s c 0x26 tag .badArg [] s))

/-- R109: SET WATCH from the senior port replaces both intervals, and each port's liveness is judged at once: a
LIVE port past the late interval becomes LATE and sets PORT_LATE (R106), and a SILENT, LATE or LIVE port past the
lost interval becomes LOST and sets PORT_LOST (R107): its claims are FREE, its changes withdrawn, its records
authorless, with CLAIM_LOST and WITHDRAWN (R101, R127, R128); every other port keeps its state, its claims, its
waiting changes and its records. The caller is LIVE (R105) and is never among them. -/
def Obligations.SetWatchJudgesEveryPort : Prop :=
  ∀ (c : CpId) (tag : Byte) (late : BitVec 16) (lost : Byte) (s : State), Takes s c →
    (¬ WatchRange late lost →
      exec (.setWatch c tag late lost) s = .next (replied s c 0x0C tag .badArg [] s)) ∧
    (WatchRange late lost → s.senior = some c →
      let aged (ms : Nat) (k : CpId) : Prop := ms * 768 ≤ s.now - (s.ports.look k).watchAt
      let dead (k : CpId) : Bool := decide (k ≠ c ∧ (s.ports.look k).liveness ≠ .lost ∧
        aged (lost.toNat * 1000) k)
      let lately (k : CpId) : Prop :=
        k ≠ c ∧ (s.ports.look k).liveness = .live ∧ aged late.toNat k
      ∃ t, exec (.setWatch c tag late lost) s = .next t ∧
        t = { s with
          holders := t.holders, takes := t.takes, tags := t.tags, ports := t.ports,
          flags := t.flags, lateMs := t.lateMs, lostSeconds := t.lostSeconds } ∧
        t.lateMs = late.toNat ∧ t.lostSeconds = lost.toNat ∧
        LossesTaken dead s t ∧
        (∀ f, flagSet t f = true ↔ flagSet s f = true ∨
          ∃ k, (f = .portLate k ∧ lately k) ∨ (f = .portLost k ∧ dead k = true)) ∧
        PortGains [.fault] (repliedPort s c ⟨0x0C, tag, .ok, false, []⟩ (s.ports.look c))
          (t.ports.look c) ∧
        (∀ k, k ≠ c → PortGains (if dead k then [.fault, .claimLost, .withdrawn] else [.fault])
          { s.ports.look k with
            liveness :=
              if (s.ports.look k).liveness = .lost then .lost
              else if aged (lost.toNat * 1000) k then .lost
              else if (s.ports.look k).liveness = .live ∧ aged late.toNat k then .late
              else (s.ports.look k).liveness }
          (t.ports.look k)) ∧
        (∀ k, FaultHanded s t k))

/-- R106: a LIVE port whose watch timer has reached the late interval becomes LATE and sets PORT_LATE; its
claims, its records and its waiting changes stay. R107: a SILENT or LATE port whose watch timer has reached
the lost interval becomes LOST: its claims are FREE, its changes withdrawn with WITHDRAWN where one was
(R101, R127, R128), its records authorless with their content kept, CLAIM_LOST set where an item was freed,
and PORT_LOST set; every other change, claim and record stays. No other port changes but for FAULT (R152). -/
def Obligations.LatenessAndLossOfAPort : Prop :=
  (∀ (c : CpId) (s : State), s.phase = .running → (s.ports.look c).liveness = .live →
     s.lateMs * 768 ≤ s.now - (s.ports.look c).watchAt →
     ∃ t, exec (.portLate c) s = .next t ∧
       t = { s with ports := t.ports, flags := t.flags } ∧
       PortGains [.fault] { s.ports.look c with liveness := .late } (t.ports.look c) ∧
       (∀ k, k ≠ c → PortGains [.fault] (s.ports.look k) (t.ports.look k)) ∧
       (∀ k, FaultHanded s t k) ∧
       (∀ f, flagSet t f = true ↔ f = .portLate c ∨ flagSet s f = true)) ∧
  (∀ (c : CpId) (s : State), s.phase = .running →
     ((s.ports.look c).liveness = .silent ∨ (s.ports.look c).liveness = .late) →
     s.lostSeconds * 1000 * 768 ≤ s.now - (s.ports.look c).watchAt →
     ∃ t, exec (.portLost c) s = .next t ∧
       t = { s with
         holders := t.holders, takes := t.takes, tags := t.tags, ports := t.ports,
         flags := t.flags } ∧
       LossesTaken (fun k => decide (k = c)) s t ∧
       PortGains [.fault, .claimLost, .withdrawn] { s.ports.look c with liveness := .lost }
         (t.ports.look c) ∧
       (∀ k, k ≠ c → PortGains [.fault] (s.ports.look k) (t.ports.look k)) ∧
       (∀ k, FaultHanded s t k) ∧
       (∀ f, flagSet t f = true ↔ f = .portLost c ∨ flagSet s f = true))

/-! ## Lane commands -/

/-- The lane commands whose fields beside the lane are never out of range, with their codes (R20). -/
def plainLaneCommands (c : CpId) (tag lane a : Byte) : List (Byte × Instr) :=
  [(0x10, .laneEnable c tag lane), (0x11, .laneDisable c tag lane), (0x12, .lanePark c tag lane),
    (0x13, .laneResume c tag lane), (0x14, .setEmit c tag lane a), (0x15, .setStrip c tag lane a)]

/-- The lane commands with their codes, as a caller sends them for one lane byte (R20). -/
def laneCommands (c : CpId) (tag lane a : Byte) : List (Byte × Instr) :=
  plainLaneCommands c tag lane a ++
    [(0x16, .setParkMode c tag lane a), (0x17, .setCoastLimit c tag lane a)]

/-- R20: a lane outside 0..7, a park mode above 2 and a coast limit above 250 are refused with BAD_ARG, whoever
holds Ln; then a caller that does not hold Ln is refused with NOT_OWNER, and then a command that the lane state
does not allow with STATE; each changes nothing but its port. -/
def Obligations.LaneCommandChecks : Prop :=
  ∀ (c : CpId) (tag lane a : Byte) (s : State), Takes s c →
    (8 ≤ lane.toNat → ∀ p ∈ laneCommands c tag lane a,
      exec p.2 s = .next (replied s c p.1 tag .badArg [] s)) ∧
    (2 < a.toNat → exec (.setParkMode c tag lane a) s =
      .next (replied s c 0x16 tag .badArg [] s)) ∧
    (250 < a.toNat → exec (.setCoastLimit c tag lane a) s =
      .next (replied s c 0x17 tag .badArg [] s)) ∧
    (∀ l : LaneId, laneField lane = some l → s.holders.look (laneItem l) ≠ some c →
      (∀ p ∈ plainLaneCommands c tag lane a,
        exec p.2 s = .next (replied s c p.1 tag .notOwner [] s)) ∧
      (a.toNat ≤ 2 → exec (.setParkMode c tag lane a) s =
        .next (replied s c 0x16 tag .notOwner [] s)) ∧
      (a.toNat ≤ 250 → exec (.setCoastLimit c tag lane a) s =
        .next (replied s c 0x17 tag .notOwner [] s))) ∧
    (∀ l : LaneId, laneField lane = some l → s.holders.look (laneItem l) = some c →
      ((s.lanes.look l).state ≠ .off → exec (.laneEnable c tag lane) s =
        .next (replied s c 0x10 tag .state [] s)) ∧
      ((s.lanes.look l).state ≠ .run → (s.lanes.look l).state ≠ .coast →
        exec (.lanePark c tag lane) s = .next (replied s c 0x12 tag .state [] s)) ∧
      ((s.lanes.look l).state ≠ .parked → exec (.laneResume c tag lane) s =
        .next (replied s c 0x13 tag .state [] s)))

/-- The Take Unit's state of a lane, and the reference counts, where neither an application nor a removal comes
(R12): staging, queue, timer, COMMAND hold, closure counter and every tag record stay, and no port receives
CANCELLED. -/
def TakesStay (l : LaneId) (s t : State) : Prop :=
  let u := s.takes.look l
  let v := t.takes.look l
  t.tags = s.tags ∧ v.staging = u.staging ∧ v.queue = u.queue ∧ v.timer = u.timer ∧
    v.holdCommand = u.holdCommand ∧ v.closureCounter = u.closureCounter ∧
    ∀ k, noticeSet t k .cancelled = noticeSet s k .cancelled

/-- An entry of a lane to PARKED (R14, R129), whatever the cause: the cause, the marks, the count and the PARK
hold; in FLUSH mode every staged and queued batch of the lane goes, the tag counts follow, and exactly the owners
receive CANCELLED; in HOLD and LATCH all of them stay. -/
def EntersParked (l : LaneId) (cause : ParkCause) (s t : State) : Prop :=
  let n := t.lanes.look l
  let u := s.takes.look l
  let v := t.takes.look l
  n.state = .parked ∧ n.parkCause = some cause ∧ n.coastCount = 0 ∧ n.relockSeen = false ∧
    n.resumeArmed = false ∧ v.holdPark = true ∧
    ((s.lanes.look l).parkMode ≠ .flush → TakesStay l s t) ∧
    ((s.lanes.look l).parkMode = .flush → v.allChanges = [] ∧ v.queue = [] ∧ v.timer = .idle ∧
      v.holdCommand = false ∧ v.freshHead = false ∧ v.closureCounter = u.closureCounter ∧
      t.tags = (endChanges u.allChanges s).tags ∧
      ∀ k, noticeSet t k .cancelled = true ↔ noticeSet s k .cancelled = true ∨ u.owns k = true)

/-- The reader of a lane after a departure from RUN (R32, R34, R36, R38): every group ABSENT with miss count 0
and its cell mark clear, every tag assembly idle, every kept block absent, and no parsing. -/
def ReaderDeparted (r : Reader) : Prop :=
  (∀ g, (r.groups.look g).presence = .absent ∧ (r.groups.look g).misses = 0 ∧
    (r.groups.look g).cellMark = false) ∧
  (∀ k, (r.tracks.look k).assembly = [] ∧ (r.tracks.look k).kept = none) ∧ r.parsing = false

/-- R9, R16, R19: LANE ENABLE moves an OFF lane to SEEK; LANE RESUME moves a PARKED lane to SEEK, clears
the expected class and removes the PARK hold; the caller, which holds Ln, receives LANE. R12, R18, R19: LANE
DISABLE moves the lane to OFF from every state and clears count, mark and cause; from PARKED the PARK hold
goes; the queue, the plans and the expected class stay. In OFF it changes nothing. R32, R34, R36, R38: from RUN
every group becomes ABSENT with miss count 0 and no cell mark, every assembly is abandoned and every kept block
dropped; the reader stops parsing, and the sets and the surplus of the frame in progress stand. -/
def Obligations.LaneEnableResumeAndDisable : Prop :=
  (∀ (c : CpId) (tag lane : Byte) (l : LaneId) (s : State), Takes s c → laneField lane = some l →
     s.holders.look (laneItem l) = some c →
     ((s.lanes.look l).state = .off → exec (.laneEnable c tag lane) s =
       .next (replied s c 0x10 tag .ok []
         (setNotice c .lane (modLane l (fun n => { n with state := .seek }) s)))) ∧
     ((s.lanes.look l).state = .parked → exec (.laneResume c tag lane) s =
       .next (replied s c 0x13 tag .ok []
         (setNotice c .lane (modTake l (fun t => { t with holdPark := false })
           (modLane l (fun n => { n with
             state := .seek, expected := none, relockSeen := false, resumeArmed := false,
             parkCause := none }) s)))))) ∧
  (∀ (c : CpId) (tag lane : Byte) (l : LaneId) (s : State), Takes s c → laneField lane = some l →
     s.holders.look (laneItem l) = some c →
     ((s.lanes.look l).state = .off → exec (.laneDisable c tag lane) s =
       .next (replied s c 0x11 tag .ok [] s)) ∧
     ((s.lanes.look l).state ≠ .off →
       ∃ t, exec (.laneDisable c tag lane) s = .next t ∧
         t = { s with
           lanes := t.lanes, readers := t.readers, writers := t.writers, takes := t.takes,
           ports := t.ports } ∧
         t.lanes.look l = { s.lanes.look l with
           state := .off, coastCount := 0, relockSeen := false, resumeArmed := false,
           parkCause := none } ∧
         (∀ k, k ≠ l → t.lanes.look k = s.lanes.look k ∧ t.readers.look k = s.readers.look k ∧
           t.writers.look k = s.writers.look k ∧ t.takes.look k = s.takes.look k) ∧
         t.takes.look l = { s.takes.look l with
           holdPark := (s.takes.look l).holdPark && decide ((s.lanes.look l).state ≠ .parked) } ∧
         ((s.lanes.look l).state = .run → (t.writers.look l).crowding = .none ∧
           ReaderDeparted (t.readers.look l) ∧
           (t.readers.look l).surplus = (s.readers.look l).surplus ∧
           ∀ g, ((t.readers.look l).groups.look g).setCount =
             ((s.readers.look l).groups.look g).setCount) ∧
         ((s.lanes.look l).state ≠ .run →
           t.readers.look l = s.readers.look l ∧ t.writers.look l = s.writers.look l) ∧
         t.ports.look c = (repliedPort s c ⟨0x11, tag, .ok, false, []⟩ (s.ports.look c)).notify .lane ∧
         (∀ k, k ≠ c → t.ports.look k = s.ports.look k)))

/-- R12, R14, R17, R129: LANE PARK in RUN or COAST parks the lane with cause COMMAND and freezes its timer;
in FLUSH mode every batch of the lane goes, the tag counts follow, and exactly the owners receive CANCELLED; in HOLD
and LATCH the queue stays and no port does. R19: the caller, which holds Ln, receives LANE. R32, R34, R36, R38: from
RUN every group becomes ABSENT with miss count 0 and no cell mark, every assembly is abandoned and every kept block
dropped; the reader stops parsing, and the sets and the surplus of the frame in progress stand. -/
def Obligations.LaneParkParksWithCommand : Prop :=
  ∀ (c : CpId) (tag lane : Byte) (l : LaneId) (s : State), Takes s c → laneField lane = some l →
    s.holders.look (laneItem l) = some c →
    (s.lanes.look l).state = .run ∨ (s.lanes.look l).state = .coast →
      ∃ t, exec (.lanePark c tag lane) s = .next t ∧
        t = { s with
          lanes := t.lanes, readers := t.readers, writers := t.writers, takes := t.takes,
          tags := t.tags, ports := t.ports } ∧
        t.lanes.look l = { s.lanes.look l with
          state := .parked, parkCause := some .command, coastCount := 0, relockSeen := false,
          resumeArmed := false } ∧
        (∀ k, k ≠ l → t.lanes.look k = s.lanes.look k ∧ t.readers.look k = s.readers.look k ∧
          t.writers.look k = s.writers.look k ∧ t.takes.look k = s.takes.look k) ∧
        EntersParked l .command s t ∧
        ((s.lanes.look l).parkMode ≠ .flush →
          t.takes.look l = { s.takes.look l with holdPark := true }) ∧
        ((s.lanes.look l).state = .run → (t.writers.look l).crowding = .none ∧
          ReaderDeparted (t.readers.look l) ∧
          (t.readers.look l).surplus = (s.readers.look l).surplus ∧
          ∀ g, ((t.readers.look l).groups.look g).setCount =
            ((s.readers.look l).groups.look g).setCount) ∧
        ((s.lanes.look l).state ≠ .run →
          t.readers.look l = s.readers.look l ∧ t.writers.look l = s.writers.look l) ∧
        PortGains [.lane, .cancelled] (repliedPort s c ⟨0x12, tag, .ok, false, []⟩ (s.ports.look c))
          (t.ports.look c) ∧ noticeSet t c .lane = true ∧
        (∀ k, k ≠ c → PortGains [.cancelled] (s.ports.look k) (t.ports.look k))

/-- R21, R23: SET EMIT and SET STRIP write a new pending plan, SET PARK MODE the park mode and SET COAST
LIMIT the coast limit, in every lane state, and change nothing else. -/
def Obligations.LaneSettingsAreWritten : Prop :=
  ∀ (c : CpId) (tag lane a : Byte) (l : LaneId) (s : State), Takes s c → laneField lane = some l →
    s.holders.look (laneItem l) = some c →
    exec (.setEmit c tag lane a) s = .next (replied s c 0x14 tag .ok []
      (modLane l (fun n => { n with
        pendingPlan := some ⟨a, (n.pendingPlan.getD n.plan).strip⟩ }) s)) ∧
    exec (.setStrip c tag lane a) s = .next (replied s c 0x15 tag .ok []
      (modLane l (fun n => { n with
        pendingPlan := some ⟨(n.pendingPlan.getD n.plan).emit, a⟩ }) s)) ∧
    (∀ m, parkModeField a = some m → exec (.setParkMode c tag lane a) s =
      .next (replied s c 0x16 tag .ok [] (modLane l (fun n => { n with parkMode := m }) s))) ∧
    (a.toNat ≤ 250 → exec (.setCoastLimit c tag lane a) s =
      .next (replied s c 0x17 tag .ok []
        (modLane l (fun n => { n with coastLimit := a.toNat }) s)))

/-- R22, R177: what READ LANE answers with part STATE and with part TAG, and its refusals; nothing but
the caller's port changes. That part STATE looks at no track number is the model's choice (log 28). -/
def Obligations.ReadLaneAnswers : Prop :=
  ∀ (c : CpId) (tag lane part track : Byte) (s : State), Takes s c →
    (∀ l : LaneId, laneField lane = some l → exec (.readLane c tag lane 0 track) s =
      .next (replied s c 0x18 tag .ok
        ([laneStateCode (s.lanes.look l).state, classCode (s.lanes.look l).expected,
            detectorCode (s.lanes.look l).detector,
            classCode (match (s.lanes.look l).detector with
              | .unlocked => none
              | .candidate x => some x
              | .locked x => some x),
            parkModeCode (s.lanes.look l).parkMode, parkCauseCode (s.lanes.look l).parkCause,
            BitVec.ofNat 8 (s.lanes.look l).coastLimit, BitVec.ofNat 8 (s.lanes.look l).coastCount,
            boolByte (s.lanes.look l).relockSeen, (s.lanes.look l).plan.emit,
            (s.lanes.look l).plan.strip, boolByte (s.lanes.look l).pendingPlan.isSome,
            ((s.lanes.look l).pendingPlan.getD ⟨0, 0⟩).emit,
            ((s.lanes.look l).pendingPlan.getD ⟨0, 0⟩).strip] ++
          (List.finRange 8).map fun g =>
            presenceCode ((s.readers.look l).groups.look g).presence) s)) ∧
    (∀ (l : LaneId) (k : TrackId), laneField lane = some l → track.toNat = k.val →
      exec (.readLane c tag lane 1 track) s =
        .next (replied s c 0x18 tag .ok
          (match ((s.readers.look l).tracks.look k).kept with
            | none => [track, 0] ++ List.replicate 32 0
            | some b => [track, 1] ++ (List.finRange 32).map fun i => b.look i) s)) ∧
    (8 ≤ lane.toNat ∨ 2 ≤ part.toNat ∨ (part = 1 ∧ 24 ≤ track.toNat) →
      exec (.readLane c tag lane part track) s = .next (replied s c 0x18 tag .badArg [] s))

/-! ## Take queues -/

/-- R116, R117, R140: STAGE adds a change to the caller's staging batch on the destination's timing lane,
or replaces the one it holds for the destination, and the tag counts follow; its refusals, a field out of
range first, change nothing but the caller's port. R175: fields in range spell a change: the fade codes 0, 1, 2
and 3 are 0, 64, 256 and 1024 samples; the tag codes are FFh for an absent reference, 40h for NONE, 41h for PASS
and 0..63 for a record; a delay of 0 is an absent target. -/
def Obligations.StageAddsOrReplaces : Prop :=
  ∀ (c : CpId) (tag f r : Byte) (d v w : BitVec 16) (s : State), Takes s c →
    (256 ≤ d.toNat ∨ 258 ≤ v.toNat ∨ 4 ≤ f.toNat ∨ (0x42 ≤ r.toNat ∧ r ≠ 0xFF) ∨
        (w ≠ 0 ∧ (w.toNat < 16 ∨ 2048 < w.toNat)) →
      exec (.stage c tag d v f r w) s = .next (replied s c 0x20 tag .badArg [] s)) ∧
    (d.toNat < 256 → v.toNat < 258 → f.toNat < 4 → r.toNat < 0x42 ∨ r = 0xFF →
      w = 0 ∨ (16 ≤ w.toNat ∧ w.toNat ≤ 2048) →
      ∃ x, changeOf d v f r w = some x ∧ x.dest.val = d.toNat ∧ x.source.val = v.toNat ∧
        (f = 0 → x.fade = 0) ∧ (f = 1 → x.fade = 64) ∧ (f = 2 → x.fade = 256) ∧
        (f = 3 → x.fade = 1024) ∧
        (r = 0xFF → x.tag = none) ∧ (r = 0x40 → x.tag = some .none) ∧
        (r = 0x41 → x.tag = some .pass) ∧
        (∀ n : TagId, r.toNat = n.val → x.tag = some (.record n)) ∧
        (w = 0 → x.delay = none) ∧ (w ≠ 0 → x.delay = some w.toNat)) ∧
    ∀ x : Change, changeOf d v f r w = some x →
    (s.holders.look (destItem x.dest) ≠ some c → exec (.stage c tag d v f r w) s =
      .next (replied s c 0x20 tag .notOwner [] s)) ∧
    (s.holders.look (destItem x.dest) = some c → namesFreeRecord s x = true →
      exec (.stage c tag d v f r w) s = .next (replied s c 0x20 tag .noTag [] s)) ∧
    (∀ l mine, l = timingLane s x.dest → mine = (s.takes.look l).staging.look c →
      s.holders.look (destItem x.dest) = some c → namesFreeRecord s x = false →
      (∀ y ∈ mine, y.dest ≠ x.dest) →
      (8 ≤ mine.length ∨ 32 ≤ (s.takes.look l).poolCount → exec (.stage c tag d v f r w) s =
        .next (replied s c 0x20 tag .full [] s)) ∧
      (mine.length < 8 → (s.takes.look l).poolCount < 32 → exec (.stage c tag d v f r w) s =
        .next (replied s c 0x20 tag .ok
          [BitVec.ofNat 8 (mine.length + 1), BitVec.ofNat 8 ((s.takes.look l).poolCount + 1)]
          (countUp (x.tag.getD .none)
            (modTake l (fun t => { t with staging := t.staging.put c (mine ++ [x]) }) s))))) ∧
    (∀ l a y b, l = timingLane s x.dest → (s.takes.look l).staging.look c = a ++ y :: b →
      s.holders.look (destItem x.dest) = some c → namesFreeRecord s x = false →
      y.dest = x.dest → (∀ z ∈ a ++ b, z.dest ≠ x.dest) →
      exec (.stage c tag d v f r w) s =
        .next (replied s c 0x20 tag .ok
          [BitVec.ofNat 8 (a ++ y :: b).length, BitVec.ofNat 8 (s.takes.look l).poolCount]
          (countDown (y.tag.getD .none) (countUp (x.tag.getD .none)
            (modTake l (fun t => { t with staging := t.staging.put c (a ++ x :: b) }) s)))))

/-- R118, R119: UNSTAGE removes the caller's staged change for a destination; CLOSE moves the caller's
staging batch to the tail of the lane's queue, and loads the timer where the queue was empty. -/
def Obligations.UnstageAndCloseMoveStaging : Prop :=
  ∀ (c : CpId) (tag lane delay : Byte) (v : BitVec 16) (s : State), Takes s c →
    (256 ≤ v.toNat →
      exec (.unstage c tag v) s = .next (replied s c 0x21 tag .badArg [] s)) ∧
    (8 ≤ lane.toNat ∨ 250 < delay.toNat →
      exec (.close c tag lane delay) s = .next (replied s c 0x22 tag .badArg [] s)) ∧
    (∀ (d : DestId) l a y b, v.toNat = d.val → l = timingLane s d →
      (s.takes.look l).staging.look c = a ++ y :: b → y.dest = d → (∀ z ∈ a ++ b, z.dest ≠ d) →
      exec (.unstage c tag v) s = .next (replied s c 0x21 tag .ok
        [BitVec.ofNat 8 (a ++ b).length]
        (countDown (y.tag.getD .none)
          (modTake l (fun t => { t with staging := t.staging.put c (a ++ b) }) s)))) ∧
    (∀ d : DestId, v.toNat = d.val →
      (∀ z ∈ (s.takes.look (timingLane s d)).staging.look c, z.dest ≠ d) →
      exec (.unstage c tag v) s = .next (replied s c 0x21 tag .empty [] s)) ∧
    (∀ l t, laneField lane = some l → t = s.takes.look l → delay.toNat ≤ 250 →
      t.staging.look c ≠ [] →
      (8 ≤ t.queue.length → exec (.close c tag lane delay) s =
        .next (replied s c 0x22 tag .full [] s)) ∧
      (t.queue.length < 8 → exec (.close c tag lane delay) s =
        .next (replied s c 0x22 tag .ok [t.closureCounter, BitVec.ofNat 8 t.queue.length]
          (modTake l (fun t => { t with
            staging := t.staging.put c []
            queue := t.queue ++ [⟨c, t.closureCounter, delay.toNat, t.staging.look c⟩]
            closureCounter := t.closureCounter + 1
            timer := if t.queue = [] then .counting delay.toNat else t.timer }) s)))) ∧
    (∀ l : LaneId, laneField lane = some l → delay.toNat ≤ 250 →
      (s.takes.look l).staging.look c = [] →
      exec (.close c tag lane delay) s = .next (replied s c 0x22 tag .empty [] s))

/-- R124: HOLD sets and RUN removes the COMMAND hold, from the owner of the head batch or the senior port;
an empty queue refuses with EMPTY and another caller with NOT_OWNER. R126, R127: CANCEL removes the batch at
a position that carries the closure number, for its owner or the senior port; where it was the head the
timer is loaded afresh from the new head; the owner receives CANCELLED from the senior port's cancel
alone. R123: where the removed head was to be applied at the switch point that has come, no batch is applied
at it, not even a new head of delay 0 (log 39). -/
def Obligations.HoldRunAndCancelActOnBatches : Prop :=
  (∀ (c : CpId) (tag lane pos clo : Byte) (s : State), Takes s c → 8 ≤ lane.toNat →
     exec (.hold c tag lane) s = .next (replied s c 0x24 tag .badArg [] s) ∧
     exec (.run c tag lane) s = .next (replied s c 0x25 tag .badArg [] s) ∧
     exec (.cancel c tag lane pos clo) s = .next (replied s c 0x23 tag .badArg [] s)) ∧
  (∀ (c : CpId) (tag lane pos clo : Byte) (l : LaneId) (s : State), Takes s c →
     laneField lane = some l →
     (8 ≤ pos.toNat → exec (.cancel c tag lane pos clo) s =
       .next (replied s c 0x23 tag .badArg [] s)) ∧
     (pos.toNat < 8 → (s.takes.look l).queue.length ≤ pos.toNat →
       exec (.cancel c tag lane pos clo) s = .next (replied s c 0x23 tag .empty [] s))) ∧
  (∀ (c : CpId) (tag lane : Byte) (l : LaneId) (s : State), Takes s c → laneField lane = some l →
     ((s.takes.look l).queue = [] →
       exec (.hold c tag lane) s = .next (replied s c 0x24 tag .empty [] s) ∧
       exec (.run c tag lane) s = .next (replied s c 0x25 tag .empty [] s)) ∧
     (∀ b rest, (s.takes.look l).queue = b :: rest →
       (b.owner = c ∨ s.senior = some c →
         exec (.hold c tag lane) s = .next (replied s c 0x24 tag .ok
           [if (s.takes.look l).holdPark then 3 else 1]
           (modTake l (fun t => { t with holdCommand := true }) s)) ∧
         exec (.run c tag lane) s = .next (replied s c 0x25 tag .ok
           [if (s.takes.look l).holdPark then 2 else 0]
           (modTake l (fun t => { t with holdCommand := false }) s))) ∧
       (b.owner ≠ c → s.senior ≠ some c →
         exec (.hold c tag lane) s = .next (replied s c 0x24 tag .notOwner [] s) ∧
         exec (.run c tag lane) s = .next (replied s c 0x25 tag .notOwner [] s)))) ∧
  (∀ (c : CpId) (tag lane pos clo : Byte) (l : LaneId) (b : Batch) (s : State), Takes s c →
     laneField lane = some l → pos.toNat < 8 → (s.takes.look l).queue[pos.toNat]? = some b →
     (b.closure ≠ clo → exec (.cancel c tag lane pos clo) s =
       .next (replied s c 0x23 tag .empty [] s)) ∧
     (b.closure = clo → b.owner ≠ c → s.senior ≠ some c → exec (.cancel c tag lane pos clo) s =
       .next (replied s c 0x23 tag .notOwner [] s)) ∧
     (b.closure = clo → b.owner = c ∨ s.senior = some c →
       ∃ t, exec (.cancel c tag lane pos clo) s = .next t ∧
         t = { s with takes := t.takes, tags := t.tags, ports := t.ports } ∧
         t.tags = (endChanges b.changes s).tags ∧
         (∀ k, k ≠ l → t.takes.look k = s.takes.look k) ∧
         (t.takes.look l).queue = (s.takes.look l).queue.eraseIdx pos.toNat ∧
         (t.takes.look l).staging = (s.takes.look l).staging ∧
         (t.takes.look l).holdPark = (s.takes.look l).holdPark ∧
         (t.takes.look l).closureCounter = (s.takes.look l).closureCounter ∧
         (pos = 0 → (t.takes.look l).holdCommand =
           ((s.takes.look l).holdCommand && !(s.takes.look l).queue.tail.isEmpty)) ∧
         (pos ≠ 0 → (t.takes.look l).timer = (s.takes.look l).timer ∧
           (t.takes.look l).holdCommand = (s.takes.look l).holdCommand) ∧
         (pos = 0 → (t.takes.look l).timer =
           (match (s.takes.look l).queue.tail with
             | [] => .idle
             | h :: _ => .counting h.delay)) ∧
         (pos = 0 → takeDue s l = true → takeDue t l = false ∧
           ∃ u, exec (.switchPoint l) t = .next u ∧
             (u.takes.look l).queue = (s.takes.look l).queue.tail) ∧
         t.ports.look c = repliedPort s c
           ⟨0x23, tag, .ok, false, [BitVec.ofNat 8 b.changes.length]⟩ (s.ports.look c) ∧
         (b.owner ≠ c → t.ports.look b.owner = (s.ports.look b.owner).notify .cancelled) ∧
         (∀ k, k ≠ c → k ≠ b.owner → t.ports.look k = s.ports.look k)))

/-- R81: the kind in force for a source and a tag reference is CODED, code 2: the kind of the record that is
named, or for PASS the kind in byte 0 of the block kept for a valid lane source. -/
def CodedInForce (s : State) (src : Src) (ref : TagRef) : Prop :=
  (∃ n x, ref = .record n ∧ (s.tags.look n).content = some x ∧ x.kind = 2) ∨
    ∃ l k b, ref = .pass ∧ src = .ring (laneRing l k) ∧ srcValid s src = true ∧
      ((s.readers.look l).tracks.look k).kept = some b ∧ b.look 0 = 2

/-- R82 to R86: a change applied in `s` to its destination's entry `e` leaves the entry `e'`, field by field.
The source is the change's. R82, R83: the fade in flight ends; a change of source fades from the old source where
it stood, over the change's fade length, or cuts where that is CUT or where the kind in force is CODED before or
after (R81). R84: a tag reference that the change carries is stored and counted; where it carries none the stored
code stays and the counted reference takes the one it names, but that a code which names no reference is counted
as NONE and one that names a free record becomes NONE is the model's reading (log 11); a delay target that the
change carries is stored, and else the old one stays. R85: the entry is aligned where the source changed or the
change carries a delay target, and otherwise keeps its read index; a pending nudge is not touched. R86: it is GOOD,
under the check code of its fields. -/
def ChangeApplied (s : State) (x : Change) (e e' : Entry) : Prop :=
  let coded := CodedInForce s e.src e.tagUsed ∨ CodedInForce s e'.src e'.counted
  e'.source = BitVec.ofNat 16 x.source.val ∧
  (e'.src = e.src → e'.fade = none) ∧
  (e'.src ≠ e.src → x.fade = 0 ∨ coded → e'.fade = none) ∧
  (e'.src ≠ e.src → x.fade ≠ 0 → ¬ coded → e'.fade = some ⟨e.src, e.readIndex, x.fade, 0⟩) ∧
  (∀ r, x.tag = some r → e'.tag = tagRefCode r ∧ e'.counted = r) ∧
  (x.tag = none →
    (∀ n : TagId, e.tag.toNat = n.val →
      ((s.tags.look n).content.isSome = true → e'.tag = e.tag ∧ e'.counted = .record n) ∧
      ((s.tags.look n).content = none → e'.tag = 0x40 ∧ e'.counted = .none)) ∧
    (e.tag = 0x40 → e'.tag = 0x40 ∧ e'.counted = .none) ∧
    (e.tag = 0x41 → e'.tag = 0x41 ∧ e'.counted = .pass) ∧
    (0x42 ≤ e.tag.toNat → e'.tag = e.tag ∧ e'.counted = .none)) ∧
  (∀ n, x.delay = some n → e'.delay = BitVec.ofNat 16 n) ∧
  (x.delay = none → e'.delay = e.delay) ∧
  (e'.src ≠ e.src ∨ x.delay.isSome = true → e'.readIndex = alignedIndex s e'.src e'.delayUsed) ∧
  (e'.src = e.src → x.delay = none → e'.readIndex = e.readIndex) ∧
  e'.nudge = e.nudge ∧ e'.health = .good ∧
  e'.code = Config.checkCode e'.source e'.tag e'.delay

/-- R84, R140: an entry's counted reference goes from `old` to `new`: where they differ the record that was named
loses one count and the record that is named gains one; every other count, and every record's content, stays. -/
def CountMoves (old new : TagRef) (s t : State) : Prop :=
  ∀ n, (t.tags.look n).content = (s.tags.look n).content ∧
    (t.tags.look n).count =
      if old = new then (s.tags.look n).count
      else (s.tags.look n).count - (if old = .record n then 1 else 0) +
        (if new = .record n then 1 else 0)

/-- The batch `b` is applied to the patch table of `s`, which leaves that of `t` (R122): where its changes name
each destination once (R117), each named entry is the one that R81 to R86 give for its change; every record keeps
its content, and the counts stay equal to the namings (R84, R140). -/
def BatchApplied (b : Batch) (s t : State) : Prop :=
  ((b.changes.map (·.dest)).Nodup → ∀ x ∈ b.changes,
    t.entries.look x.dest = (applyChange x s).entries.look x.dest ∧
    ChangeApplied s x (s.entries.look x.dest) (t.entries.look x.dest)) ∧
  (∀ n, (t.tags.look n).content = (s.tags.look n).content) ∧
  (ClaimsForm s → CountForm s → CountForm t)

/-- R122: TAKE, at a switch point with the count spent and no hold, applies the head batch, each change by R81 to
R86 and the tag counts with it, removes it, gives its owner APPLIED and loads the timer from the next batch; no
other lane's queue is touched, and of the lane itself only the mark that the switch point's take is still to come.
That TAKE stands apart from SWITCH_POINT, and so may come before the nudges of its switch point, which R76 leaves
open, is the model's choice (log 13). -/
def Obligations.TakeAppliesTheHeadBatch : Prop :=
  ∀ (l : LaneId) (b : Batch) (rest : List Batch) (s : State), takeDue s l = true →
    (s.takes.look l).queue = b :: rest →
    ∃ t, exec (.take l) s = .next t ∧
      t = { s with
        lanes := t.lanes, entries := t.entries, takes := t.takes, tags := t.tags,
        ports := t.ports } ∧
      t.lanes.look l = { s.lanes.look l with takePending := false } ∧
      (∀ k, k ≠ l → t.lanes.look k = s.lanes.look k) ∧
      t.takes.look l = { s.takes.look l with
        queue := rest
        timer := match rest with
          | [] => .idle
          | h :: _ => .counting h.delay } ∧
      (∀ k, k ≠ l → t.takes.look k = s.takes.look k) ∧
      t.ports.look b.owner = { s.ports.look b.owner with
        notices := (s.ports.look b.owner).notices ||| BitVec.twoPow 7 Notice.applied.bit } ∧
      (∀ k, k ≠ b.owner → t.ports.look k = s.ports.look k) ∧
      (∀ d, (∀ x ∈ b.changes, x.dest ≠ d) → t.entries.look d = s.entries.look d) ∧
      BatchApplied b s t

/-- R81, R82, R83, R84, R85, R86: an applied change leaves its destination's entry as `ChangeApplied` says, whether
it carries a tag reference and a delay target or not, moves the tag counts from the old counted reference to the
new one, and touches no other entry and nothing else. What a stored code that names no reference or a free record
leaves, where the change carries none, is the model's reading (log 11). -/
def Obligations.AppliedChangeFadesAndAligns : Prop :=
  ∀ (x : Change) (s : State),
    let e := s.entries.look x.dest
    let t := applyChange x s
    let e' := t.entries.look x.dest
    t = { s with entries := t.entries, tags := t.tags } ∧
    ChangeApplied s x e e' ∧
    CountMoves e.counted e'.counted s t ∧
    (∀ d, d ≠ x.dest → t.entries.look d = s.entries.look d)

/-- R86: the application ends with the health GOOD and the stored check code written, for every applied
change, and sets no fault flag and no notice. -/
def Obligations.ApplicationEndsWithTwoWrites : Prop :=
  ∀ (x : Change) (s : State),
    ((applyChange x s).entries.look x.dest).health = .good ∧
    ((applyChange x s).entries.look x.dest).code =
      Config.checkCode ((applyChange x s).entries.look x.dest).source
        ((applyChange x s).entries.look x.dest).tag ((applyChange x s).entries.look x.dest).delay ∧
    (applyChange x s).flags = s.flags ∧ (applyChange x s).ports = s.ports ∧
    (∀ (l : LaneId) (b : Batch) (rest : List Batch), takeDue s l = true →
      (s.takes.look l).queue = b :: rest →
      ∃ t, exec (.take l) s = .next t ∧ noticeSet t b.owner .applied = true)

/-- R23, R76, R120, R122: a switch point makes the pending plan current; moves the read index of every
destination that the lane times and that has a nudge pending back by its amount, and the previous index of a
fade with it; and where the take timer is unheld counts it down, or at count 0 applies the head batch to the
entries so moved, each change by R81 to R86 and the tag counts with it, removes it, gives its owner APPLIED and
loads the timer from the next batch. R123: a head that a CANCEL brought forward at this switch point waits for the
next (log 39). That the nudges come before the batch at a SWITCH_POINT, where R76 leaves the order open, and that
the take timer's work is left out where TAKE has done it are the model's choices (log 13), and so is that an index
outside 0..47 of the tone or silence is folded (log 37). -/
def Obligations.SwitchPointDoesTheTimedWork : Prop :=
  ∀ (l : LaneId) (s : State), switchPointDue s l = true →
    let u := s.takes.look l
    let unheld : Bool := (s.lanes.look l).takePending && !u.holdCommand && !u.holdPark
    let back (src : Src) (i : RingPos) (a : Int) : RingPos :=
      match src with
      | .ring _ => i - BitVec.ofInt 12 a
      | _ => BitVec.ofInt 12 (((i.toNat : Int) - a) % 48)
    let moved (d : DestId) : Entry :=
      if timingLane s d = l then
        match (s.entries.look d).nudge with
        | none => s.entries.look d
        | some a => { s.entries.look d with
            readIndex := back (s.entries.look d).src (s.entries.look d).readIndex a
            fade := (s.entries.look d).fade.map fun f => { f with
              prevIndex := back f.prev f.prevIndex a }
            nudge := none }
      else s.entries.look d
    ∃ t, exec (.switchPoint l) s = .next t ∧
      t = { s with
        lanes := t.lanes, entries := t.entries, takes := t.takes, tags := t.tags,
        ports := t.ports } ∧
      t.lanes.look l = { s.lanes.look l with
        plan := (s.lanes.look l).pendingPlan.getD (s.lanes.look l).plan
        pendingPlan := none, switchPending := false, takePending := false } ∧
      (∀ k, k ≠ l → t.lanes.look k = s.lanes.look k ∧ t.takes.look k = s.takes.look k) ∧
      (∀ d, timingLane s d = l → (t.entries.look d).nudge = none) ∧
      (∀ d, (∀ b, u.queue.head? = some b → unheld = true → u.timer = .counting 0 →
          u.freshHead = false → ∀ x ∈ b.changes, x.dest ≠ d) → t.entries.look d = moved d) ∧
      ((s.lanes.look l).takePending = false ∨
          u.freshHead = false ∧ (unheld = false ∨ u.timer = .idle) →
        t.takes = s.takes ∧ t.tags = s.tags ∧ t.ports = s.ports) ∧
      ((s.lanes.look l).takePending = true → u.freshHead = true →
        t.takes.look l = { u with freshHead := false } ∧ t.tags = s.tags ∧ t.ports = s.ports) ∧
      (∀ n, unheld = true → u.freshHead = false → u.timer = .counting (n + 1) →
        t.takes.look l = { u with timer := .counting n } ∧ t.tags = s.tags ∧ t.ports = s.ports) ∧
      (∀ b rest, unheld = true → u.freshHead = false → u.timer = .counting 0 →
        u.queue = b :: rest →
        t.takes.look l = { u with
          queue := rest
          timer := match rest with
            | [] => .idle
            | h :: _ => .counting h.delay } ∧
        (t.ports.look b.owner) = { s.ports.look b.owner with
          notices := (s.ports.look b.owner).notices ||| BitVec.twoPow 7 Notice.applied.bit } ∧
        (∀ k, k ≠ b.owner → t.ports.look k = s.ports.look k) ∧
        BatchApplied b { s with entries := Table.gen moved } t)

/-! ## Entries -/

/-- R80, R177: what READ ENTRY answers of an entry whose fields are in range; nothing but the caller's
port changes. That a field out of range is shown as stored is the model's choice (log 12). -/
def Obligations.ReadEntryAnswers : Prop :=
  ∀ (c : CpId) (tag : Byte) (v : BitVec 16) (d : DestId) (s : State), Takes s c →
    (v.toNat = d.val → exec (.readEntry c tag v) s = .next (replied s c 0x28 tag .ok
      (bytesOf16 (s.entries.look d).source ++ [(s.entries.look d).tag] ++
        bytesOf16 (s.entries.look d).delay ++ numBytes (s.entries.look d).readIndex.toNat ++
        (match (s.entries.look d).src with
          | .ring r => numBytes (s.writeIndex.look r - (s.entries.look d).readIndex).toNat
          | _ => [0xFF, 0xFF]) ++
        (match (s.entries.look d).fade with
          | none => List.replicate 10 0
          | some f => [1] ++ numBytes f.prev.number ++ numBytes f.prevIndex.toNat ++
            (match f.prev with
              | .ring r => numBytes (s.writeIndex.look r - f.prevIndex).toNat
              | _ => [0xFF, 0xFF]) ++ [fadeCode f.length] ++ numBytes f.pos) ++
        (match (s.entries.look d).nudge with
          | none => [0, 0]
          | some a => [1, BitVec.ofInt 8 a]) ++
        [boolByte (decide ((s.entries.look d).health = .suspect)),
          boolByte (!(s.entries.look d).matches), cpCode (s.holders.look (destItem d))]) s)) ∧
    (256 ≤ v.toNat → exec (.readEntry c tag v) s = .next (replied s c 0x28 tag .badArg [] s))

/-- R75, R91: NUDGE stores the amount as the pending nudge and CHECK TEST spoils the stored check code;
each changes nothing else of the entry, and each refusal changes nothing but the caller's port. A destination
above 255 is refused with BAD_ARG before the amount, the holder and the caller's seniority are looked at. The
refusal of a CHECK TEST from another port than the senior one stands with the other senior commands. -/
def Obligations.NudgeAndCheckTestWriteOneField : Prop :=
  (∀ (c : CpId) (tag a : Byte) (v : BitVec 16) (s : State), Takes s c → 256 ≤ v.toNat →
    exec (.nudge c tag v a) s = .next (replied s c 0x29 tag .badArg [] s) ∧
    exec (.checkTest c tag v) s = .next (replied s c 0x2A tag .badArg [] s)) ∧
  ∀ (c : CpId) (tag a : Byte) (v : BitVec 16) (d : DestId) (s : State), Takes s c →
    v.toNat = d.val →
    (a.toInt < -15 ∨ 16 < a.toInt ∨ a.toInt = 0 → exec (.nudge c tag v a) s =
      .next (replied s c 0x29 tag .badArg [] s)) ∧
    (-15 ≤ a.toInt → a.toInt ≤ 16 → a.toInt ≠ 0 →
      (s.holders.look (destItem d) ≠ some c → exec (.nudge c tag v a) s =
        .next (replied s c 0x29 tag .notOwner [] s)) ∧
      (s.holders.look (destItem d) = some c → (s.entries.look d).nudge.isSome = true →
        exec (.nudge c tag v a) s = .next (replied s c 0x29 tag .again [] s)) ∧
      (s.holders.look (destItem d) = some c → (s.entries.look d).nudge = none →
        exec (.nudge c tag v a) s = .next (replied s c 0x29 tag .ok []
          (modEntry d (fun e => { e with nudge := some a.toInt }) s)))) ∧
    (s.senior = some c → exec (.checkTest c tag v) s = .next (replied s c 0x2A tag .ok []
      (modEntry d (fun e => { e with
        code := Config.checkCode e.source e.tag e.delay + 1 }) s)))

/-- R87, R88, R90: a visit moves the scrub position on by one; an entry that is GOOD and mismatches becomes
SUSPECT and STEADY, sets ENTRY_CHECK and is recorded where no first-suspect is; every other visit changes
no entry. R152: a port receives FAULT where ENTRY_CHECK is newly set and its mask enables the group; nothing else of
any port changes. -/
def Obligations.ScrubVisitMarksAMismatch : Prop :=
  ∀ s : State, scrubDue s = true →
    ∃ t, exec .scrubVisit s = .next t ∧
      t = { s with
        scrubPos := s.scrubPos + 1, scrubAt := s.scrubAt + 60, entries := t.entries,
        flags := t.flags, ports := t.ports, firstSuspect := t.firstSuspect } ∧
      TellsPorts [] s t ∧
      (∀ d, d ≠ s.scrubPos → t.entries.look d = s.entries.look d) ∧
      ((s.entries.look s.scrubPos).health = .good → (s.entries.look s.scrubPos).matches = false →
        t.entries.look s.scrubPos =
          { s.entries.look s.scrubPos with fade := none, health := .suspect } ∧
        t.firstSuspect = some (s.firstSuspect.getD s.scrubPos) ∧
        (∀ f, flagSet t f = true ↔ f = .entryCheck ∨ flagSet s f = true) ∧
        (flagSet s .entryCheck = false → ∀ c,
          (s.ports.look c).faultMask.getLsbD FaultGroup.patch.bit = true →
          noticeSet t c .fault = true)) ∧
      ((s.entries.look s.scrubPos).health = .suspect ∨
          (s.entries.look s.scrubPos).matches = true →
        t.entries.look s.scrubPos = s.entries.look s.scrubPos ∧ t.flags = s.flags ∧
        t.ports = s.ports ∧ t.firstSuspect = s.firstSuspect)

/-- R74, R79: FADE_END drops a fade that has reached its length and no other; ENTRY_UPSET changes one
stored field and leaves a mismatch where the entry matched; neither touches another entry or any count.
That FADE_END does nothing on its own but drop a fade that is over (log 13), the widths that an upset
can reach (log 7) and that an upset before the scene is loaded changes nothing (log 41) are the model's
choices. -/
def Obligations.FadeEndAndUpsetTouchOneEntry : Prop :=
  ∀ (d : DestId) (u : Upset) (s : State),
    (∀ f, (s.entries.look d).fade = some f → f.length ≤ f.pos → exec (.fadeEnd d) s =
      .next (modEntry d (fun e => { e with fade := none }) s)) ∧
    (∀ f, (s.entries.look d).fade = some f → f.pos < f.length → exec (.fadeEnd d) s =
      .next (modEntry d (fun e => e) s)) ∧
    (s.phase ≠ .running → exec (.entryUpset d u) s = .next s) ∧
    (s.phase = .running → ∃ t, exec (.entryUpset d u) s = .next t ∧
      t = { s with entries := t.entries } ∧
      (∀ k, k ≠ d → t.entries.look k = s.entries.look k) ∧
      (t.entries.look d = match u with
        | .source v => { s.entries.look d with source := v }
        | .tag v => { s.entries.look d with tag := v }
        | .delay v => { s.entries.look d with delay := v }
        | .code v => { s.entries.look d with code := v }) ∧
      ((s.entries.look d).matches = true → t.entries.look d ≠ s.entries.look d →
        (t.entries.look d).matches = false))

/-! ## Audio ports and the sample path -/

/-- R67: READ PORT is open to every control port and changes no state; it answers the word-clock presence,
the regain count, the reference lane, the write index shared by the port's 16 sources and the tone level,
as they stand; a port outside 0..3 is refused with BAD_ARG. -/
def Obligations.ReadPortAnswers : Prop :=
  ∀ (c : CpId) (tag b : Byte) (s : State), Takes s c →
    (∀ (p : SapId) (w : RingPos), b.toNat = p.val →
      (∀ k, s.writeIndex.look (sapRing p k) = w) →
      exec (.readPort c tag b) s = .next (replied s c 0x30 tag .ok
        ([if (s.saps.look p).present then 0 else 1, BitVec.ofNat 8 (s.saps.look p).regain,
            BitVec.ofNat 8 (s.saps.look p).refLane.val] ++ numBytes w.toNat ++
          [BitVec.ofInt 8 s.toneLevel]) s)) ∧
    (4 ≤ b.toNat → exec (.readPort c tag b) s = .next (replied s c 0x30 tag .badArg [] s))

/-- R61, R66, R161, R168: from the senior port, SET TONE, SET LINE MASK and SET GUARD write their setting
and SET PORT REF the reference lane where no change for the port's destinations waits; fields out of range
are refused with BAD_ARG. -/
def Obligations.SeniorSettingsAreWritten : Prop :=
  ∀ (c : CpId) (tag a b : Byte) (s : State), Takes s c →
    (s.senior = some c →
      (-30 ≤ a.toInt → a.toInt ≤ -10 → exec (.setTone c tag a) s =
        .next (replied s c 0x32 tag .ok [] { s with toneLevel := a.toInt })) ∧
      (a.toNat < 64 → exec (.setLineMask c tag a) s =
        .next (replied s c 0x42 tag .ok [] { s with lineMask := a.setWidth 6 })) ∧
      (a.toNat < 2 → exec (.setGuard c tag a) s =
        .next (replied s c 0x49 tag .ok [] { s with saveGuard := decide (a = 1) })) ∧
      (∀ (p : SapId) (l : LaneId), a.toNat = p.val → b.toNat = l.val →
        ((∀ k, ∀ x ∈ (s.takes.look k).allChanges, sapOf x.dest ≠ some p) →
          exec (.setPortRef c tag a b) s = .next (replied s c 0x31 tag .ok []
            (modSap p (fun q => { q with refLane := l }) s))) ∧
        (∀ k x, x ∈ (s.takes.look k).allChanges → sapOf x.dest = some p →
          exec (.setPortRef c tag a b) s = .next (replied s c 0x31 tag .queued [] s)))) ∧
    (a.toInt < -30 ∨ -10 < a.toInt → exec (.setTone c tag a) s =
      .next (replied s c 0x32 tag .badArg [] s)) ∧
    (64 ≤ a.toNat → exec (.setLineMask c tag a) s =
      .next (replied s c 0x42 tag .badArg [] s)) ∧
    (2 ≤ a.toNat → exec (.setGuard c tag a) s = .next (replied s c 0x49 tag .badArg [] s)) ∧
    (4 ≤ a.toNat ∨ 8 ≤ b.toNat → exec (.setPortRef c tag a b) s =
      .next (replied s c 0x31 tag .badArg [] s))

/-- R63: a word-clock frame start of a PRESENT port writes the received samples, one into each of its 16
sources, and reads its 16 destinations, each as one sample read; the first one since the port became PRESENT
writes nothing. Which of the two pieces of work comes first is an operand, the model's choice (log 10): the
reads see the sources as they stood before the write, or as it leaves them. A read that slips sets SLIP of the
port's reference lane (R66, R71), and no other flag; a port receives FAULT where it is newly set (R152), and nothing
else of any control port changes. -/
def Obligations.WordClockFrameWritesAndReads : Prop :=
  ∀ (p : SapId) (xs : Table Sample 16) (rf : Bool) (s : State), awake s = true → StoreForm s →
    (s.saps.look p).present = true →
    ∃ t, exec (.wordClockFrameStart p xs rf) s = .next t ∧
      t = { s with
        mem := t.mem, writeIndex := t.writeIndex, saps := t.saps, entries := t.entries,
        flags := t.flags, ports := t.ports } ∧
      (t.saps.look p).frameOpen = true ∧ (t.saps.look p).clockAt = s.now ∧
      (t.saps.look p).present = true ∧
      (∀ q, q ≠ p → t.saps.look q = s.saps.look q) ∧
      (∀ d, sapOf d ≠ some p → t.entries.look d = s.entries.look d) ∧
      TellsPorts [] s t ∧
      ((s.saps.look p).frameOpen = true →
        (∀ k, t.writeIndex.look (sapRing p k) = s.writeIndex.look (sapRing p k) + 1 ∧
          ringSample t (sapRing p k) (s.writeIndex.look (sapRing p k)) = xs.look k) ∧
        (∀ r, (∀ k, r ≠ sapRing p k) → t.writeIndex.look r = s.writeIndex.look r) ∧
        (∀ a, (∀ k, a ≠ ringAddr (sapRing p k) (s.writeIndex.look (sapRing p k))) →
          storeRead t.mem a = storeRead s.mem a)) ∧
      ((s.saps.look p).frameOpen = false → t.mem = s.mem ∧ t.writeIndex = s.writeIndex) ∧
      (∀ u, u = (if rf then s else { s with mem := t.mem, writeIndex := t.writeIndex }) → ∀ k,
        (t.saps.look p).output.look k = (readDest (sapDest p k) u).1 ∧
        t.entries.look (sapDest p k) = (readDest (sapDest p k) u).2.entries.look (sapDest p k)) ∧
      (∀ f, f ≠ .slip (s.saps.look p).refLane → flagSet t f = flagSet s f) ∧
      (∀ u, u = (if rf then s else { s with mem := t.mem, writeIndex := t.writeIndex }) → ∀ f,
        flagSet t f = true ↔ flagSet s f = true ∨
          ∃ k, flagSet (readDest (sapDest p k) u).2 f = true)

/-- R64: four word periods without a word-clock frame start make the port LOST, set PORT_CLOCK_LOST and end the
validity of its sources; while LOST each internal period writes one zero sample into each source, reads and
discards, and sends zeros, a slip setting SLIP of the reference lane (R66, R71). A port receives FAULT where a
flag is newly set (R152), and nothing else of any control port changes. Which of the two pieces of work comes
first is an operand, the model's choice (log 10). -/
def Obligations.ClockLossRunsOnTheInternalTimer : Prop :=
  ∀ (p : SapId) (rf : Bool) (s : State), StoreForm s →
    (clockLossDue s p = true → ∃ t, exec (.portClockLost p) s = .next t ∧
      t = { s with saps := t.saps, flags := t.flags, ports := t.ports } ∧
      t.saps.look p = { s.saps.look p with
        present := false, regain := 0, frameOpen := false,
        timerAt := (s.saps.look p).clockAt + 64, output := Table.fill 16 0 } ∧
      (∀ q, q ≠ p → t.saps.look q = s.saps.look q) ∧
      (∀ f, flagSet t f = true ↔ f = .portClockLost p ∨ flagSet s f = true) ∧
      TellsPorts [] s t ∧
      (∀ k, srcValid t (.ring (sapRing p k)) = false)) ∧
    (timerPeriodDue s p = true → ∃ t, exec (.internalTimerPeriod p rf) s = .next t ∧
      t = { s with
        mem := t.mem, writeIndex := t.writeIndex, saps := t.saps, entries := t.entries,
        flags := t.flags, ports := t.ports } ∧
      (∀ q, q ≠ p → t.saps.look q = s.saps.look q) ∧
      (t.saps.look p).timerAt = (s.saps.look p).timerAt + 16 ∧
      (t.saps.look p).output = Table.fill 16 0 ∧ (t.saps.look p).present = false ∧
      (∀ k, t.writeIndex.look (sapRing p k) = s.writeIndex.look (sapRing p k) + 1 ∧
        ringSample t (sapRing p k) (s.writeIndex.look (sapRing p k)) = 0) ∧
      (∀ r, (∀ k, r ≠ sapRing p k) → t.writeIndex.look r = s.writeIndex.look r) ∧
      (∀ a, (∀ k, a ≠ ringAddr (sapRing p k) (s.writeIndex.look (sapRing p k))) →
        storeRead t.mem a = storeRead s.mem a) ∧
      (∀ d, sapOf d ≠ some p → t.entries.look d = s.entries.look d) ∧
      (∀ u, u = (if rf then s else { s with mem := t.mem, writeIndex := t.writeIndex }) → ∀ k,
        t.entries.look (sapDest p k) = (readDest (sapDest p k) u).2.entries.look (sapDest p k)) ∧
      TellsPorts [] s t ∧
      (∀ f, f ≠ .slip (s.saps.look p).refLane → flagSet t f = flagSet s f) ∧
      (∀ u, u = (if rf then s else { s with mem := t.mem, writeIndex := t.writeIndex }) → ∀ f,
        flagSet t f = true ↔ flagSet s f = true ∨
          ∃ k, flagSet (readDest (sapDest p k) u).2 f = true))

/-- R65: a word-clock frame start of a LOST port counts toward regain; the eighth steady one makes the port
PRESENT, its sources valid, writes nothing and reads the destinations, each as one sample read, as PORT_REGAIN
does. PORT_CLOCK_LOST stays as it is; a read that slips sets SLIP (R71), a port receives FAULT where it is newly
set (R152), and nothing else of any control port changes. That PORT_REGAIN is the regaining frame start put
alone (log 13) and that the window of a steady frame start, 14 to 18 ticks, includes both its ends (log 22) are
the model's choices. -/
def Obligations.RegainTakesEightSteadyFrames : Prop :=
  ∀ (p : SapId) (xs : Table Sample 16) (rf : Bool) (n : Nat) (s : State), awake s = true →
    (s.saps.look p).present = false →
    n = (if (s.saps.look p).regain ≠ 0 ∧ (s.saps.look p).clockAt + 14 ≤ s.now ∧
        s.now ≤ (s.saps.look p).clockAt + 18 then (s.saps.look p).regain + 1 else 1) →
    (n < 8 → exec (.wordClockFrameStart p xs rf) s =
      .next (modSap p (fun q => { q with regain := n, clockAt := s.now }) s)) ∧
    (8 ≤ n → ∃ t, exec (.wordClockFrameStart p xs rf) s = .next t ∧
      exec (.portRegain p) s = .next t ∧
      t = { s with saps := t.saps, entries := t.entries, flags := t.flags, ports := t.ports } ∧
      (t.saps.look p).present = true ∧ (t.saps.look p).regain = 0 ∧
      (t.saps.look p).frameOpen = true ∧ (t.saps.look p).clockAt = s.now ∧
      (∀ k, (t.saps.look p).output.look k = (readDest (sapDest p k) s).1 ∧
        t.entries.look (sapDest p k) = (readDest (sapDest p k) s).2.entries.look (sapDest p k) ∧
        srcValid t (.ring (sapRing p k)) = true) ∧
      (∀ q, q ≠ p → t.saps.look q = s.saps.look q) ∧
      (∀ d, sapOf d ≠ some p → t.entries.look d = s.entries.look d) ∧
      TellsPorts [] s t ∧
      (∀ f, f ≠ .slip (s.saps.look p).refLane → flagSet t f = flagSet s f) ∧
      (∀ f, flagSet t f = true ↔ flagSet s f = true ∨
        ∃ k, flagSet (readDest (sapDest p k) s).2 f = true))

/-- R60, R68, R69, R73, R74, R89: what a sample read of a destination yields: 0 from S257, the tone sample at
the index from S256, the sample at the read index from a ring, 0 from an idle one, the mix of a fade, 0 from a
SUSPECT entry (an index outside 0..47 of the tone or silence: log 37); and what it moves: each read index by 1
in its own cycle, or to the delay target on an idle source, and the fade position by 1. R71: an index that
leaves a distance outside 8..4000 is placed at the delay target, and then, and only then, SLIP of the timing
lane is set; a port receives FAULT where it is newly set (R152), and nothing else of the state changes. -/
def Obligations.SampleReadStaysInDistance : Prop :=
  ∀ (d : DestId) (s : State),
    let e := s.entries.look d
    let x := (readDest d s).1
    let t := (readDest d s).2
    let sample (src : Src) (i : RingPos) : Sample :=
      match src with
      | .silence => 0
      | .tone => toneSample s.toneLevel i.toNat
      | .ring r => if ringIdle s r then 0 else storeRead s.mem (r.val * 4096 + i.toNat)
    let slipped (src : Src) (i : RingPos) : Bool :=
      match src with
      | .ring r => !ringIdle s r &&
          decide ((s.writeIndex.look r - (i + 1)).toNat < 8 ∨
            4000 < (s.writeIndex.look r - (i + 1)).toNat)
      | _ => false
    let moved (src : Src) (i : RingPos) : RingPos :=
      match src with
      | .ring r =>
        if ringIdle s r || slipped src i then s.writeIndex.look r - BitVec.ofNat 12 e.delayUsed
        else i + 1
      | _ => BitVec.ofNat 12 ((i.toNat + 1) % 48)
    t = { s with entries := t.entries, flags := t.flags, ports := t.ports } ∧
    TellsPorts [] s t ∧
    (∀ k, k ≠ d → t.entries.look k = s.entries.look k) ∧
    (e.health = .suspect → x = 0) ∧
    (e.health = .good → e.fade = none → x = sample e.src e.readIndex) ∧
    (∀ f, e.health = .good → e.fade = some f →
      x = BitVec.ofInt 24 (roundDiv
        ((sample f.prev f.prevIndex).toInt * ((f.length : Int) - f.pos) +
          (sample e.src e.readIndex).toInt * f.pos) f.length)) ∧
    t.entries.look d = { e with
      readIndex := moved e.src e.readIndex
      fade := match e.fade with
        | none => none
        | some f =>
          if f.length ≤ f.pos + 1 then none
          else some { f with prevIndex := moved f.prev f.prevIndex, pos := f.pos + 1 } } ∧
    (∀ r, e.src = .ring r →
      8 ≤ (s.writeIndex.look r - (t.entries.look d).readIndex).toNat ∧
      (s.writeIndex.look r - (t.entries.look d).readIndex).toNat ≤ 4000) ∧
    (∀ f, flagSet t f = true ↔ flagSet s f = true ∨ f = .slip (timingLane s d) ∧
      (slipped e.src e.readIndex = true ∨
        ∃ g, e.fade = some g ∧ slipped g.prev g.prevIndex = true))

/-- R70, R71, R74: a silent advance of n samples moves each read index by n in its own cycle and the fade
position by n, then applies the slip rule once to each index, and sets SLIP of the timing lane where one
slipped; 0 samples change nothing. A port receives FAULT where SLIP is newly set (R152), and nothing else of the
state changes. That a previous index whose fade ends in the same advance still sets SLIP is
the model's reading (log 24), and so is that an index outside 0..47 of the tone or silence, which an upset can
leave, is folded into the cycle (log 37). -/
def Obligations.SilentAdvanceMovesByN : Prop :=
  ∀ (n : Nat) (d : DestId) (s : State),
    silentAdvance 0 d s = s ∧
    (0 < n →
      let e := s.entries.look d
      let e' := (silentAdvance n d s).entries.look d
      let moved (src : Src) (i : RingPos) : RingPos :=
        match src with
        | .ring r =>
          let w := s.writeIndex.look r
          let j := i + BitVec.ofNat 12 n
          if (w - j).toNat < 8 ∨ 4000 < (w - j).toNat then w - BitVec.ofNat 12 e.delayUsed else j
        | _ => BitVec.ofNat 12 ((i.toNat + n) % 48)
      e' = { e with
        readIndex := moved e.src e.readIndex
        fade := match e.fade with
          | none => none
          | some f =>
            if f.length ≤ f.pos + n then none
            else some { f with prevIndex := moved f.prev f.prevIndex, pos := f.pos + n } } ∧
      let slipped (src : Src) (i : RingPos) : Prop :=
        ∃ r, src = .ring r ∧ ((s.writeIndex.look r - (i + BitVec.ofNat 12 n)).toNat < 8 ∨
          4000 < (s.writeIndex.look r - (i + BitVec.ofNat 12 n)).toNat)
      (∀ k, k ≠ d → (silentAdvance n d s).entries.look k = s.entries.look k) ∧
      (∀ t, t = silentAdvance n d s →
        t = { s with entries := t.entries, flags := t.flags, ports := t.ports } ∧
        TellsPorts [] s t) ∧
      (∀ f, flagSet (silentAdvance n d s) f = true ↔ flagSet s f = true ∨
        f = .slip (timingLane s d) ∧
          (slipped e.src e.readIndex ∨ ∃ g, e.fade = some g ∧ slipped g.prev g.prevIndex)))

/-! ## Lanes and their frames -/

/-- R4, R5: the lock detector's judgement of a closing frame, which is a complete frame of a class when it
has the class's cell lines and lies within one sixteenth of its period, both ends included (log 22; 16 ticks
for each of the S samples, log 1), and incomplete when it is one of no class. A frame that FA24 and FA25 both
take is of the class the detector holds. For a detector that holds neither, the rules do not choose: that a
length of exactly 32000 ticks is of FA24 and one of exactly 30720 of FA25, and that any other is of one of the
two, the same whatever the detector holds, is the model's choice (log 6). -/
def Obligations.DetectorJudgesTheClosingFrame : Prop :=
  ∀ (len lines : Nat),
    (∀ c, frameMatches c len lines = true ↔ lines = c.cellLines ∧
      16 * c.samples ≤ len + c.samples ∧ len ≤ 16 * c.samples + c.samples) ∧
    (∀ c, frameMatches c len lines = true →
      (Detector.candidate c).judge len lines = (.locked c, false) ∧
      (Detector.locked c).judge len lines = (.locked c, false)) ∧
    (∀ c, frameMatches c len lines = true →
      (∀ c', frameMatches c' len lines = true → c' = c) →
      Detector.unlocked.judge len lines = (.candidate c, false) ∧
      (∀ c', c' ≠ c → (Detector.candidate c').judge len lines = (.candidate c, false) ∧
        (Detector.locked c').judge len lines = (.candidate c, true))) ∧
    (frameMatches .fa24 len lines = true → frameMatches .fa25 len lines = true →
      ∃ c, (c = .fa24 ∨ c = .fa25) ∧ (len = 32000 → c = .fa24) ∧ (len = 30720 → c = .fa25) ∧
        Detector.unlocked.judge len lines = (.candidate c, false) ∧
        (∀ c', c' ≠ .fa24 → c' ≠ .fa25 →
          (Detector.candidate c').judge len lines = (.candidate c, false) ∧
          (Detector.locked c').judge len lines = (.candidate c, true))) ∧
    ((∀ c, frameMatches c len lines = false) →
      Detector.unlocked.judge len lines = (.unlocked, false) ∧
      (∀ c, (Detector.candidate c).judge len lines = (.unlocked, false) ∧
        (Detector.locked c).judge len lines = (.unlocked, true)))

/-- The end of a frame of a lane of S samples (R31, R50): each of the 24 sources is completed to S samples with
zeros, where the frame was short of them; each of the 24 destinations that the frame did not read S times is
advanced for the rest, against the sources as they now stand, and one that slips sets SLIP of the lane (R71); the
counts start afresh; and a surplus sets CELL_ERR. No other source or destination moves. -/
def FrameSettled (l : LaneId) (s t : State) : Prop :=
  let pad (k : TrackId) : Nat :=
    (s.lanes.look l).frameSamples - ((s.readers.look l).groups.look (groupOf k)).setCount
  let padded (k : TrackId) (a : Nat) : Bool :=
    inRingSpan (laneRing l k) (s.writeIndex.look (laneRing l k)) (pad k) a
  let advanced (k : TrackId) : State := silentAdvance
    ((s.lanes.look l).frameSamples - ((s.writers.look l).groups.look (groupOf k)).reads)
    (laneDest l k) { s with writeIndex := t.writeIndex }
  (∀ k, t.writeIndex.look (laneRing l k) =
    s.writeIndex.look (laneRing l k) + BitVec.ofNat 12 (pad k)) ∧
  (∀ r, (∀ k, r ≠ laneRing l k) → t.writeIndex.look r = s.writeIndex.look r) ∧
  (∀ k a, padded k a = true → storeRead t.mem a = 0) ∧
  (∀ a, (∀ k, padded k a = false) → storeRead t.mem a = storeRead s.mem a) ∧
  (∀ k, t.entries.look (laneDest l k) = (advanced k).entries.look (laneDest l k)) ∧
  (∀ d, (∀ k, d ≠ laneDest l k) → t.entries.look d = s.entries.look d) ∧
  (∀ g, ((t.readers.look l).groups.look g).setCount = 0 ∧
    (t.writers.look l).groups.look g = ⟨0, 0⟩) ∧
  (t.readers.look l).surplus = false ∧
  (flagSet t (.cellErr l) = true ↔
    flagSet s (.cellErr l) = true ∨ (s.readers.look l).surplus = true) ∧
  (flagSet t (.slip l) = true ↔ ∃ k, flagSet (advanced k) (.slip l) = true)

/-- The evaluation of the presence map at a frame start in RUN (R33): by the table of R33, on the mark that a
valid cell of the group has left. The kept blocks of a group that becomes ABSENT go (R38), and every tag
assembly is abandoned (R36). -/
def PresenceEvaluated (r r' : Reader) : Prop :=
  (∀ g,
    let q := r.groups.look g
    let q' := r'.groups.look g
    q'.cellMark = false ∧
    (q.cellMark = true → q.presence = .absent → q'.presence = .arriving ∧ q'.misses = 0) ∧
    (q.cellMark = true → q.presence ≠ .absent → q'.presence = .present ∧ q'.misses = 0) ∧
    (q.cellMark = false → q.presence = .absent ∨ q.presence = .arriving →
      q'.presence = .absent ∧ q'.misses = 0) ∧
    (q.cellMark = false → q.presence = .present → q'.presence = .lapsing ∧ q'.misses = 1) ∧
    (q.cellMark = false → q.presence = .lapsing → q.misses < 2 →
      q'.presence = .lapsing ∧ q'.misses = 2) ∧
    (q.cellMark = false → q.presence = .lapsing → 2 ≤ q.misses →
      q'.presence = .absent ∧ q'.misses = 0)) ∧
  ∀ k, (r'.tracks.look k).assembly = [] ∧ (r'.tracks.look k).kept =
    (if (r.groups.look (groupOf k)).presence ≠ .absent ∧
        (r'.groups.look (groupOf k)).presence = .absent then none
     else (r.tracks.look k).kept)

/-- The tag blocks of a lane latched at a frame start in RUN (R52): judged before the evaluation of its
presence map, or after it. -/
def BlocksLatched (l : LaneId) (s : State) (w : Writer) : Prop :=
  (∀ k, w.latched.look k = latchBlock s l k) ∨
    ∃ r, PresenceEvaluated (s.readers.look l) r ∧
      ∀ k, w.latched.look k = latchBlock { s with readers := s.readers.put l r } l k

/-- R7, R10, R11, R12, R13, R19: at an input frame start the detector judges the frame that closes (the first
one since the reset closes none) and the lane acts on it: in RUN a frame opens unless less than half the period
in force has passed, and a loss ends RUN; in SEEK and COAST a lock with the expected class, or in SEEK with none
expected, enters RUN, and another parks the lane with FORMAT; any other finding, and one in RUN that opens no
frame and loses no lock, does nothing more. The take queue stays but for the entry effect of PARKED (R14, R129).
Where a frame opens, the frame that ends is settled and the blocks latched, presence is evaluated and the end of
CROWDED judged (R33, R47), and a head that waited for the next switch point waits no longer (R121, log 39). A
departure from RUN leaves every group ABSENT with its count and mark clear, no assembly and no kept block (R34,
R36, R38). LOCK_LOST, FORMAT_CHANGED, CELL_ERR and SLIP are set where the work named sets them, and no other
flag; a port receives FAULT where one is newly set (R152), the holder of Ln LANE where the lane's state changes
(R19), and nothing else of any port changes. The end of the frame in progress after a realignment (log 15), that
R7 alone says which input frame start opens a frame, so that the first frame of RUN can take in two input frames
(log 45), a loss after the work of its frame start (log 36) and the latch before or after the evaluation (log 9)
are the model's choices. -/
def Obligations.InputFrameStartDrivesTheLane : Prop :=
  ∀ (l : LaneId) (s : State), awake s = true →
    let n := s.lanes.look l
    let found : Detector × Bool :=
      match n.inputAt with
      | none => (n.detector, false)
      | some a => n.detector.judge (s.now - a) n.inputLines
    let d := found.1
    let lost := found.2
    let opens : Prop := n.frameStartAt + 8 * n.frameSamples ≤ s.now
    ∃ t, exec (.inputFrameStart l) s = .next t ∧
      t = { s with
        lanes := t.lanes, readers := t.readers, writers := t.writers, mem := t.mem,
        writeIndex := t.writeIndex, entries := t.entries, takes := t.takes, tags := t.tags,
        ports := t.ports, flags := t.flags } ∧
      (t.lanes.look l).detector = d ∧ (t.lanes.look l).inputAt = some s.now ∧
      (t.lanes.look l).inputLines = 0 ∧ (t.writers.look l).linePos = 0 ∧
      ((t.readers.look l).parsing = true ↔ (t.lanes.look l).state = .run) ∧
      (∀ k, k ≠ l → t.lanes.look k = s.lanes.look k ∧ t.readers.look k = s.readers.look k ∧
        t.writers.look k = s.writers.look k ∧ t.takes.look k = s.takes.look k) ∧
      (n.state = .off ∨ n.state = .parked ∨ (n.state = .run ∧ lost = false ∧ ¬ opens) ∨
          ((n.state = .seek ∨ n.state = .coast) ∧ ∀ c, d ≠ .locked c) →
        t = { s with lanes := t.lanes, readers := t.readers, writers := t.writers } ∧
        t.lanes.look l = { n with
          detector := d, inputAt := some s.now, inputLines := 0
          phaseAt := if n.state = .run then s.now else n.phaseAt }) ∧
      (((t.lanes.look l).state = .run ∧ ¬ opens) ∨
          (n.state ≠ .run ∧ (t.lanes.look l).state ≠ .run) →
        t.readers.look l = { s.readers.look l with
          handed := [], parsing := decide ((t.lanes.look l).state = .run) } ∧
        t.writers.look l = { s.writers.look l with linePos := 0 }) ∧
      (n.state = .parked ∨ (t.lanes.look l).state ≠ .parked →
        TakesStay l s t ∧ (t.takes.look l).holdPark = (s.takes.look l).holdPark) ∧
      ((t.lanes.look l).state = .run → ¬ opens → t.takes = s.takes) ∧
      (¬ opens → t.mem = s.mem ∧ t.writeIndex = s.writeIndex ∧ t.entries = s.entries ∧
        (t.lanes.look l).frameStartAt = n.frameStartAt) ∧
      (opens → n.state = .run → (t.takes.look l).freshHead = false) ∧
      (n.state = .run → lost = false → (t.lanes.look l).state = .run ∧
        (opens → (t.lanes.look l).frameStartAt = s.now ∧ (t.lanes.look l).phaseAt = s.now ∧
          (t.lanes.look l).switchPending = true ∧
          (t.lanes.look l).frameSamples = (match n.expected with
            | some c => c.samples
            | none => 1920) ∧
          FrameSettled l s t ∧ PresenceEvaluated (s.readers.look l) (t.readers.look l) ∧
          BlocksLatched l s (t.writers.look l) ∧
          (t.writers.look l).crowding = (match (s.writers.look l).crowding with
            | .thisFrame => .lastFrame
            | _ => .none)) ∧
        (¬ opens → (t.lanes.look l).phaseAt = s.now)) ∧
      (n.state = .run → lost = true → flagSet t (.lockLost l) = true ∧
        (n.coastLimit = 0 → EntersParked l .coastExpiry s t) ∧
        (n.coastLimit ≠ 0 → (t.lanes.look l).state = .coast) ∧
        (t.lanes.look l).coastCount = 0 ∧ (t.writers.look l).crowding = .none ∧
        (opens → (t.lanes.look l).frameStartAt = s.now ∧ (t.lanes.look l).phaseAt = s.now ∧
          FrameSettled l s t ∧ BlocksLatched l s (t.writers.look l)) ∧
        (¬ opens → (t.lanes.look l).phaseAt = n.phaseAt ∧
          t.writers.look l = { s.writers.look l with linePos := 0, crowding := .none } ∧
          (t.readers.look l).surplus = (s.readers.look l).surplus ∧
          ∀ g, ((t.readers.look l).groups.look g).setCount =
            ((s.readers.look l).groups.look g).setCount) ∧
        ReaderDeparted (t.readers.look l)) ∧
      (∀ c, d = .locked c → (n.state = .seek ∧ n.expected = none) ∨
          ((n.state = .seek ∨ n.state = .coast) ∧ n.expected = some c) →
        (t.lanes.look l).state = .run ∧ (t.lanes.look l).expected = some c ∧
        (t.lanes.look l).phaseAt = s.now ∧
        (opens → (t.lanes.look l).frameStartAt = s.now ∧ (t.takes.look l).freshHead = false ∧
          (t.lanes.look l).frameSamples = c.samples ∧ FrameSettled l s t ∧
          PresenceEvaluated (s.readers.look l) (t.readers.look l) ∧
          BlocksLatched l { s with lanes := t.lanes } (t.writers.look l))) ∧
      (∀ c c', d = .locked c → n.state = .seek ∨ n.state = .coast → n.expected = some c' →
        c' ≠ c → EntersParked l .format s t ∧ (t.lanes.look l).expected = some c' ∧
          (∀ f, flagSet t f = true ↔ f = .formatChanged l ∨ flagSet s f = true) ∧
          (t.lanes.look l).frameStartAt = n.frameStartAt) ∧
      (flagSet t (.lockLost l) = true ↔ flagSet s (.lockLost l) = true ∨
        (n.state = .run ∧ lost = true)) ∧
      (flagSet t (.formatChanged l) = true ↔ flagSet s (.formatChanged l) = true ∨
        ((n.state = .seek ∨ n.state = .coast) ∧ (t.lanes.look l).state = .parked)) ∧
      (¬ opens ∨ (n.state ≠ .run ∧ (t.lanes.look l).state ≠ .run) →
        flagSet t (.cellErr l) = flagSet s (.cellErr l) ∧
        flagSet t (.slip l) = flagSet s (.slip l)) ∧
      (∀ f, f ≠ .lockLost l → f ≠ .formatChanged l → f ≠ .cellErr l → f ≠ .slip l →
        flagSet t f = flagSet s f) ∧
      TellsPorts [.lane, .cancelled] s t ∧ LaneTold l s t

/-- R4, R5, R6, R11: a predicted input frame start that is late by more than one eighth of the period loses
lock, and in RUN the timer produces the overdue frame start, which settles the frame that ends (R31, R50) and
latches the blocks (R52, log 9), and the lane leaves RUN, its reader with every group ABSENT, count and mark
clear, no assembly and no kept block (R34, R36, R38); a candidate lapses in the same time. A head that waited
for the next switch point waits no longer than this frame start (R121, log 39). The take queue stays (R12), but
for the entry effect of PARKED where the coast limit is 0 (R14, R129). LOCK_LOST is set, and of the other flags
CELL_ERR and SLIP alone where the frame's end sets them; a port receives FAULT where one is newly set (R152),
the holder of Ln LANE (R19), and nothing else of any port changes. That the overdue frame start comes however
short its frame (log 35), and the departure after its work (log 36), are the model's choices. -/
def Obligations.LateFramesLoseLock : Prop :=
  ∀ (l : LaneId) (c : FormatClass) (at' : Nat) (s : State), awake s = true →
    (s.lanes.look l).inputAt = some at' → at' + 16 * c.samples + 2 * c.samples < s.now →
    ((s.lanes.look l).detector = .candidate c → exec (.candidateLapse l) s =
      .next (modLane l (fun n => { n with detector := .unlocked }) s)) ∧
    ((s.lanes.look l).detector = .locked c → (s.lanes.look l).state ≠ .run →
      exec (.lateFrameStart l) s =
        .next (modLane l (fun n => { n with detector := .unlocked }) s)) ∧
    ((s.lanes.look l).detector = .locked c → (s.lanes.look l).state = .run →
      ∃ t, exec (.lateFrameStart l) s = .next t ∧
        t = { s with
          lanes := t.lanes, readers := t.readers, writers := t.writers, mem := t.mem,
          writeIndex := t.writeIndex, entries := t.entries, takes := t.takes, tags := t.tags,
          ports := t.ports, flags := t.flags } ∧
        (t.lanes.look l).detector = .unlocked ∧
        (t.lanes.look l).frameStartAt = s.now ∧ (t.lanes.look l).phaseAt = s.now ∧
        flagSet t (.lockLost l) = true ∧ (t.lanes.look l).coastCount = 0 ∧
        ((s.lanes.look l).coastLimit = 0 → EntersParked l .coastExpiry s t) ∧
        ((s.lanes.look l).coastLimit ≠ 0 → (t.lanes.look l).state = .coast ∧ TakesStay l s t ∧
          (t.takes.look l).holdPark = (s.takes.look l).holdPark) ∧
        (t.lanes.look l).switchPending = true ∧ FrameSettled l s t ∧
        BlocksLatched l s (t.writers.look l) ∧ (t.writers.look l).crowding = .none ∧
        (t.takes.look l).freshHead = false ∧ ReaderDeparted (t.readers.look l) ∧
        (∀ f, f ≠ .lockLost l → f ≠ .cellErr l → f ≠ .slip l → flagSet t f = flagSet s f) ∧
        TellsPorts [.lane, .cancelled] s t ∧ LaneTold l s t ∧
        (∀ k, k ≠ l → t.lanes.look k = s.lanes.look k ∧ t.readers.look k = s.readers.look k ∧
          t.writers.look k = s.writers.look k ∧ t.takes.look k = s.takes.look k))

/-- R8, R13, R15, R31, R50, R52: a frame start that the timer marks outside RUN settles the frame that ends,
latches the tag blocks, evaluates no presence, counts a coast, looks at the detector in PARKED, and opens the
next frame. In PARKED a LOCKED detector with the expected class sets the relock mark and, where the park mode is
HOLD or FLUSH, arms the resume; the next frame start that finds both so enters RUN: HOLD or FLUSH is needed at
both frame starts (log 14). COAST_EXPIRY parks the lane at the coast limit; that it stands apart is the model's
choice (log 13), as are the latch before an entry to RUN at the same frame start (log 9) and when the frame
start is due after a realignment (log 15) or after a frame that has outrun its period (log 43). R121: a head
that waited for the next switch point waits no longer (log 39). The take queue stays, but for the entry effect
of PARKED (R14, R129) and the end of the PARK hold with it (R16). Of the flags CELL_ERR and SLIP alone can be set; a
port receives FAULT where one is newly set (R152), the holder of Ln LANE where the lane's state changes (R19), and
nothing else of any port changes. -/
def Obligations.FrameStartSettlesTheFrame : Prop :=
  ∀ (l : LaneId) (s : State), frameDue s l = true →
    let n := s.lanes.look l
    let relock : Prop := ∃ c, n.detector = .locked c ∧ n.expected = some c
    (∃ t, exec (.frameStart l) s = .next t ∧
      t = { s with
        lanes := t.lanes, readers := t.readers, writers := t.writers, mem := t.mem,
        writeIndex := t.writeIndex, entries := t.entries, takes := t.takes, tags := t.tags,
        ports := t.ports, flags := t.flags } ∧
      (t.lanes.look l).frameStartAt = s.now ∧ (t.lanes.look l).phaseAt = s.now ∧
      (t.lanes.look l).switchPending = true ∧
      (t.lanes.look l).frameSamples = (match n.expected with
        | some c => c.samples
        | none => 1920) ∧
      FrameSettled l s t ∧
      (∀ g, (t.readers.look l).groups.look g =
        { (s.readers.look l).groups.look g with setCount := 0 }) ∧
      (∀ k, (t.readers.look l).tracks.look k =
        { (s.readers.look l).tracks.look k with assembly := [] }) ∧
      (∀ k, (t.writers.look l).latched.look k = latchBlock s l k) ∧
      (t.writers.look l).crowding = (s.writers.look l).crowding ∧
      (t.takes.look l).freshHead = false ∧
      (∀ f, f ≠ .cellErr l → f ≠ .slip l → flagSet t f = flagSet s f) ∧
      TellsPorts [.lane, .cancelled] s t ∧ LaneTold l s t ∧
      (∀ k, k ≠ l → t.lanes.look k = s.lanes.look k ∧ t.readers.look k = s.readers.look k ∧
        t.writers.look k = s.writers.look k ∧ t.takes.look k = s.takes.look k) ∧
      (n.state = .off ∨ n.state = .seek → (t.lanes.look l).state = n.state) ∧
      (n.state = .coast → n.coastCount + 1 < n.coastLimit →
        (t.lanes.look l).state = .coast ∧ (t.lanes.look l).coastCount = n.coastCount + 1) ∧
      (n.state = .coast → n.coastLimit ≤ n.coastCount + 1 → EntersParked l .coastExpiry s t) ∧
      (n.state ≠ .coast ∨ n.coastCount + 1 < n.coastLimit → TakesStay l s t ∧
        ((t.lanes.look l).state ≠ .run →
          (t.takes.look l).holdPark = (s.takes.look l).holdPark)) ∧
      (n.state = .parked → ¬ relock → (t.lanes.look l).state = .parked ∧
        (t.lanes.look l).relockSeen = false ∧ (t.lanes.look l).resumeArmed = false) ∧
      (n.state = .parked → relock → n.resumeArmed = false ∨ n.parkMode = .latch →
        (t.lanes.look l).state = .parked ∧ (t.lanes.look l).relockSeen = true ∧
        (t.lanes.look l).resumeArmed = decide (n.parkMode ≠ .latch)) ∧
      (n.state = .parked → relock → n.resumeArmed = true →
        n.parkMode ≠ .latch → (t.lanes.look l).state = .run ∧
        (t.lanes.look l).relockSeen = false ∧ (t.lanes.look l).parkCause = none ∧
        (t.takes.look l).holdPark = false)) ∧
    (n.state = .coast → n.coastLimit ≤ n.coastCount + 1 →
      ∃ t, exec (.coastExpiry l) s = .next t ∧
        t = { s with lanes := t.lanes, takes := t.takes, tags := t.tags, ports := t.ports } ∧
        EntersParked l .coastExpiry s t ∧
        t.lanes.look l = { n with
          state := .parked, parkCause := some .coastExpiry, coastCount := 0, relockSeen := false,
          resumeArmed := false } ∧
        (n.parkMode ≠ .flush → t.takes.look l = { s.takes.look l with holdPark := true }) ∧
        TellsPorts [.lane, .cancelled] s t ∧ LaneTold l s t ∧
        (∀ k, k ≠ l → t.lanes.look k = s.lanes.look k ∧ t.takes.look k = s.takes.look k))

/-! ## Sound cells -/

/-- The words of a sound cell as R51 and R178 lay them out: the lead pair, the kind word, the group/count
word, nine words for each set, three tag words and the check word. -/
def cellWords (g : GroupId) (flag : Bool) (sets : List SampleSet) (tags : Table Byte 3) :
    List LaneWord :=
  let content := [guarded 0x5A, guarded (groupCountByte g sets.length flag)] ++
    sets.flatMap (fun x => sampleWords x.first ++ sampleWords x.second ++ sampleWords x.third) ++
    (List.finRange 3).map fun j => guarded (tags.look j)
  [0x3C3, 0x03C] ++ content ++ [cellCheck content]

/-- R28, R48, R51, R178: a sound cell of at most four sets is found valid by the reader and gives back its
group, its flag, its sets and its tag bytes, whatever words follow; and every cell that the writer emits, on
any line of any class, is such a cell, with the set count of the cadence, whatever the group has emitted
before (log 17), the flag on line 0 alone, and byte i of the latched blocks on line i below 32, zeros after. -/
def Obligations.EmittedCellsAreValid : Prop :=
  (∀ (g : GroupId) (flag : Bool) (sets : List SampleSet) (tags : Table Byte 3)
      (rest : List LaneWord), sets.length ≤ 4 →
    scanCell (cellWords g flag sets tags ++ rest) =
      .valid ⟨g, flag, sets, tags, cellWords g flag sets tags⟩) ∧
    ∀ (l : LaneId) (c : FormatClass) (i : Nat) (g : GroupId) (s : State), i < c.cellLines →
      ∃ (sets : List SampleSet) (tags : Table Byte 3),
        (emitCell l c i g s).1 = cellWords g (i == 0) sets tags ∧
        sets.length = c.samples * (i + 1) / c.cellLines - c.samples * i / c.cellLines ∧
        1 ≤ sets.length ∧ sets.length ≤ 4 ∧
        (∀ (k : Fin 32) j, i = k.val →
          tags.look j = ((s.writers.look l).latched.look (trackOf g j)).look k) ∧
        (32 ≤ i → ∀ j, tags.look j = 0)

/-- A well-formed word of a cell (R178): bit 8 is 1 where bits 7..0 hold an odd number of ones, and bit 9 is
its complement. -/
def GuardsAgree (w : LaneWord) : Prop :=
  (w.getLsbD 8 = true ↔ ((List.finRange 8).countP fun i => w.getLsbD i.val) % 2 = 1) ∧
    w.getLsbD 9 = !w.getLsbD 8

/-- What the reader finds at a place of the blanking (R27, R28, R178), the words running to its end: no lead
pair; a block of another kind; a discarded cell, and how many words it takes: one with a malformed kind word,
with a malformed group/count word, its unused bit set or a set count of 5..7, one that runs past the end of the
blanking, and one with a malformed word or a wrong check word; or a valid cell and its content. That a lead pair
or a kind word at the very end is a discarded cell is the model's reading (log 16). -/
def CellsAreChecked : Prop :=
  (∀ ws : List LaneWord, (∀ rest, ws ≠ 0x3C3 :: 0x03C :: rest) → scanCell ws = .noPair) ∧
  scanCell [0x3C3, 0x03C] = .discarded 2 ∧
  (∀ (k : LaneWord) (rest : List LaneWord),
    (¬ GuardsAgree k → scanCell (0x3C3 :: 0x03C :: k :: rest) = .discarded 3) ∧
    (GuardsAgree k → k.extractLsb' 0 8 ≠ 0x5A →
      scanCell (0x3C3 :: 0x03C :: k :: rest) = .other) ∧
    (GuardsAgree k → k.extractLsb' 0 8 = 0x5A → rest = [] →
      scanCell (0x3C3 :: 0x03C :: k :: rest) = .discarded 3)) ∧
  ∀ (k g : LaneWord) (body : List LaneWord), GuardsAgree k → k.extractLsb' 0 8 = 0x5A →
    let ws := 0x3C3 :: 0x03C :: k :: g :: body
    let n := (g.extractLsb' 3 3).toNat
    let bad : Prop := ¬ GuardsAgree g ∨ g.getLsbD 7 = true ∨ 5 ≤ n
    let content := body.take (9 * n + 3)
    let check := body.getD (9 * n + 3) 0
    let good : Prop := (∀ w ∈ content, GuardsAgree w) ∧
      check.toNat = ((k :: g :: content).map fun w => w.toNat).sum % 1023
    let value (i : Nat) : Byte := (body.getD i 0).extractLsb' 0 8
    let sample (i : Nat) : Sample := value i ++ value (i + 1) ++ value (i + 2)
    (bad → scanCell ws = .discarded 4) ∧
    (¬ bad → body.length < 9 * n + 4 → scanCell ws = .discarded (4 + body.length)) ∧
    (¬ bad → 9 * n + 4 ≤ body.length → ¬ good → scanCell ws = .discarded (9 * n + 8)) ∧
    (¬ bad → 9 * n + 4 ≤ body.length → good → ∃ c, scanCell ws = .valid c ∧
      c.group.val = (g.extractLsb' 0 3).toNat ∧ c.frameStart = g.getLsbD 6 ∧
      c.sets.length = n ∧
      (∀ i x, c.sets[i]? = some x → x.first = sample (9 * i) ∧
        x.second = sample (9 * i + 3) ∧ x.third = sample (9 * i + 6)) ∧
      (∀ j : Fin 3, c.tags.look j = value (9 * n + j.val)) ∧ c.words = ws.take (9 * n + 8))

/-- R27, R28, R178: which cells are damaged, and how many words each discarded cell takes. R27: a lead pair while
the lane is not in RUN, before its reader parses or beyond Lc, and a block of another kind, change nothing. R28,
R36: a discarded cell sets CELL_ERR and abandons the lane's tag assemblies; a port receives FAULT where it is newly
set (R152), and nothing else of any port changes. R29, R36, R37, R39: a valid cell
writes its sets, up to the S of the frame, into the three sources of its group; a set beyond S is dropped and
leaves the surplus mark; it counts toward presence and toward its tag blocks and is handed to the writer; other
groups and other lanes stay. That a cell is an event of its own beside its line, and that a lead pair or a kind
word at the very end of the blanking is a discarded cell, are the model's choices (log 16). -/
def Obligations.SoundCellIsTakenOrDiscarded : Prop :=
  CellsAreChecked ∧
  ∀ (l : LaneId) (words : List LaneWord) (s : State),
    let n := s.lanes.look l
    let r := s.readers.look l
    let parsed : Prop := s.phase = .running ∧ n.state = .run ∧ r.parsing = true ∧
      ∃ c, n.expected = some c ∧ (s.writers.look l).linePos < c.cellLines
    (¬ parsed ∨ scanCell words = .noPair ∨ scanCell words = .other →
      exec (.soundCell l words) s = .next s) ∧
    (∀ len, parsed → scanCell words = .discarded len →
      ∃ t, exec (.soundCell l words) s = .next t ∧
        t = { s with readers := t.readers, flags := t.flags, ports := t.ports } ∧
        (∀ f, flagSet t f = true ↔ f = .cellErr l ∨ flagSet s f = true) ∧
        TellsPorts [] s t ∧
        t.readers.look l = { r with tracks := (t.readers.look l).tracks } ∧
        (∀ k, (t.readers.look l).tracks.look k = { r.tracks.look k with assembly := [] }) ∧
        (∀ k, k ≠ l → t.readers.look k = s.readers.look k)) ∧
    (∀ c, parsed → StoreForm s → scanCell words = .valid c →
      let q := r.groups.look c.group
      let m := min c.sets.length (n.frameSamples - q.setCount)
      ∃ t, exec (.soundCell l words) s = .next t ∧
        t = { s with readers := t.readers, mem := t.mem, writeIndex := t.writeIndex } ∧
        (t.readers.look l).groups.look c.group =
          { q with setCount := q.setCount + m, cellMark := true } ∧
        (∀ g, g ≠ c.group → (t.readers.look l).groups.look g = r.groups.look g) ∧
        (t.readers.look l).surplus = (r.surplus || decide (m < c.sets.length)) ∧
        (t.readers.look l).parsing = r.parsing ∧
        (∀ j, t.writeIndex.look (laneRing l (trackOf c.group j)) =
          s.writeIndex.look (laneRing l (trackOf c.group j)) + BitVec.ofNat 12 m) ∧
        (∀ u, (∀ j, u ≠ laneRing l (trackOf c.group j)) →
          t.writeIndex.look u = s.writeIndex.look u) ∧
        (∀ i x, i < m → c.sets[i]? = some x →
          let pos j := s.writeIndex.look (laneRing l (trackOf c.group j)) + BitVec.ofNat 12 i
          ringSample t (laneRing l (trackOf c.group 0)) (pos 0) = x.first ∧
          ringSample t (laneRing l (trackOf c.group 1)) (pos 1) = x.second ∧
          ringSample t (laneRing l (trackOf c.group 2)) (pos 2) = x.third) ∧
        (∀ a, (∀ j, inRingSpan (laneRing l (trackOf c.group j))
            (s.writeIndex.look (laneRing l (trackOf c.group j))) m a = false) →
          storeRead t.mem a = storeRead s.mem a) ∧
        (∀ j, (t.readers.look l).tracks.look (trackOf c.group j) =
          (let old := r.tracks.look (trackOf c.group j)
           let byte := c.tags.look j
           if c.frameStart then { old with assembly := [byte] }
           else if old.assembly = [] then old
           else if old.assembly.length + 1 < 32 then
             { old with assembly := old.assembly ++ [byte] }
           else ⟨[], some (Table.gen fun i => (old.assembly ++ [byte]).getD i.val 0)⟩)) ∧
        (∀ k, groupOf k ≠ c.group → (t.readers.look l).tracks.look k = r.tracks.look k) ∧
        (t.readers.look l).handed = r.handed ++
          [⟨c.group, !(n.plan.strip.getLsbD c.group.val || n.plan.emit.getLsbD c.group.val),
            c.words⟩] ∧
        (∀ k, k ≠ l → t.readers.look k = s.readers.look k))

/-- `n` sample reads of one destination, one after another: the samples and the state after them. -/
def readTimes : Nat → DestId → State → List Sample × State
  | 0, _, s => ([], s)
  | n + 1, d, s =>
    ((readDest d s).1 :: (readTimes n d (readDest d s).2).1, (readTimes n d (readDest d s).2).2)

/-- R44, R45, R57, R169: a line outside the cell region, and one while the lane is not in RUN, before its reader
parses, beyond Lc or while RESET_N is low, leaves as it came. R45, R46, R48, R49: on a cell line in RUN the
blanking is built at its width: the emitted cells, as many groups as the room takes; the pass-through groups
that fit with all their cells; the other words (R40), as far as they fit; fill words. An emitted cell has the
sets of the cadence whatever its group had emitted (log 17), each one read of its three destinations, and zeros
beyond S; where the first frame of RUN takes in a second input frame, the count of emitted sets goes on (log
45). R47: a group left out makes the lane CROWDED; a read that slips sets SLIP (R71), and no other flag is set.
A port receives FAULT where one is newly set (R152), and nothing else of any port changes. R4, R48: every line
of the cell region is counted, the position up to Lc; that it stops at 1100 without a class (log 42) and that
the line is an event of its own after its cells (log 16) are the model's choices. -/
def Obligations.CellLineIsBuiltOrCarried : Prop :=
  (∀ (w : LaneWord) (ws : List LaneWord),
    let other (v : List LaneWord) : List LaneWord := otherWords v.length v
    other [] = [] ∧
    (scanCell (w :: ws) = .noPair → other (w :: ws) = w :: other ws) ∧
    (scanCell (w :: ws) = .other →
      other (w :: ws) = (w :: ws).take 3 ++ other ((w :: ws).drop 3)) ∧
    (∀ len, scanCell (w :: ws) = .discarded len →
      other (w :: ws) = other ((w :: ws).drop len)) ∧
    (∀ c, scanCell (w :: ws) = .valid c →
      other (w :: ws) = other ((w :: ws).drop c.words.length))) ∧
  ∀ (l : LaneId) (line : FeedLine) (s : State),
    let n := s.lanes.look l
    let v := s.writers.look l
    let i := v.linePos
    let limit : Nat := match n.expected with
      | some c => c.cellLines
      | none => 1100
    let width := line.blanking.length
    (s.phase = .heldReset ∨ (awake s = true ∧ line.cellRegion = false) →
      exec (.cellLine l line) s = .next (modLane l (fun n => { n with output := line }) s)) ∧
    (awake s = true → line.cellRegion = true →
      n.state ≠ .run ∨ (s.readers.look l).parsing = false ∨ n.expected = none ∨ limit ≤ i →
      exec (.cellLine l line) s = .next
        (modLane l (fun n => { n with output := line, inputLines := n.inputLines + 1 })
          (modReader l (fun r => { r with handed := [] })
            (modWriter l (fun w => { w with linePos := if i < limit then i + 1 else i }) s)))) ∧
    (∀ c, awake s = true → line.cellRegion = true → n.state = .run →
      (s.readers.look l).parsing = true → n.expected = some c → i < c.cellLines →
      let wanted := (List.finRange 8).filter fun g => n.plan.emit.getLsbD g.val
      let emitted := wanted.take c.room
      let cellsOf (g : GroupId) : List HandedCell :=
        (s.readers.look l).handed.filter fun h => decide (h.group = g) && h.passThrough
      let sets := c.samples * (i + 1) / c.cellLines - c.samples * i / c.cellLines
      let reads (g : GroupId) : Nat := min sets (n.frameSamples - (v.groups.look g).reads)
      let sample (g : GroupId) (j : Fin 3) (k : Nat) : Sample :=
        (readTimes (reads g) (laneDest l (trackOf g j)) s).1.getD k 0
      let cell (g : GroupId) : List LaneWord :=
        cellWords g (i == 0)
          ((List.range sets).map fun k => ⟨sample g 0 k, sample g 1 k, sample g 2 k⟩)
          (Table.gen fun j => match asFin 32 i with
            | some k => (v.latched.look (trackOf g j)).look k
            | none => 0)
      ∃ t, ∃ kept : GroupId → Bool, exec (.cellLine l line) s = .next t ∧
        t = { s with
          lanes := t.lanes, readers := t.readers, writers := t.writers, entries := t.entries,
          flags := t.flags, ports := t.ports } ∧
        (∀ g, kept g = true ↔ n.plan.emit.getLsbD g.val = false ∧
          (((List.finRange 8).filter fun h => decide (h < g) && kept h).map fun h =>
            (cellsOf h).length).sum + (cellsOf g).length ≤ c.room - emitted.length) ∧
        t.lanes.look l = { n with
          inputLines := n.inputLines + 1
          output := { line with blanking := (emitted.flatMap cell ++
            ((List.finRange 8).filter kept).flatMap (fun g => (cellsOf g).flatMap fun (h : HandedCell) => h.words) ++
            otherWords width line.blanking ++ List.replicate width 0x300).take width } } ∧
        (t.writers.look l).linePos = i + 1 ∧ (t.readers.look l).handed = [] ∧
        (∀ g, (t.writers.look l).groups.look g = if g ∈ emitted then
          ⟨(v.groups.look g).emitted + sets, (v.groups.look g).reads + reads g⟩
          else v.groups.look g) ∧
        (∀ g ∈ emitted, ∀ j, t.entries.look (laneDest l (trackOf g j)) =
          (readTimes (reads g) (laneDest l (trackOf g j)) s).2.entries.look
            (laneDest l (trackOf g j))) ∧
        (∀ d, (∀ g ∈ emitted, ∀ j, d ≠ laneDest l (trackOf g j)) →
          t.entries.look d = s.entries.look d) ∧
        (c.room < wanted.length ∨ (∃ g, n.plan.emit.getLsbD g.val = false ∧ kept g = false) →
          (t.writers.look l).crowding = .thisFrame ∧
          (v.crowding = .none → flagSet t (.crowded l) = true) ∧
          (v.crowding ≠ .none → flagSet t (.crowded l) = flagSet s (.crowded l))) ∧
        (wanted.length ≤ c.room → (∀ g, n.plan.emit.getLsbD g.val = false → kept g = true) →
          (t.writers.look l).crowding = v.crowding ∧
          flagSet t (.crowded l) = flagSet s (.crowded l)) ∧
        (flagSet t (.slip l) = true ↔ flagSet s (.slip l) = true ∨ ∃ g ∈ emitted, ∃ j,
          flagSet (readTimes (reads g) (laneDest l (trackOf g j)) s).2 (.slip l) = true) ∧
        (∀ f, f ≠ .crowded l → f ≠ .slip l → flagSet t f = flagSet s f) ∧
        TellsPorts [] s t ∧
        (∀ k, k ≠ l → t.lanes.look k = s.lanes.look k ∧ t.readers.look k = s.readers.look k ∧
          t.writers.look k = s.writers.look k))

/-- R53, R54, R55, R79, R179: the block that a frame start latches for a track: zeros for NONE, and for a
reference that differs from the counted one (R79); for PASS the
kept incoming block of a valid lane source of a GOOD entry, else zeros; for a record its stored fields with
the origin, the rate class, VALID and the check. -/
def Obligations.LatchedBlocksFollowTheEntry : Prop :=
  ∀ (l : LaneId) (k : TrackId) (e : Entry) (s : State), e = s.entries.look (laneDest l k) →
    (e.tagUsed = .none → ∀ i, (latchBlock s l k).look i = 0) ∧
    (∀ l' k' r b, e.tagUsed = .pass → e.health = .good → e.src = .ring r → r = laneRing l' k' →
      srcValid s e.src = true → ((s.readers.look l').tracks.look k').kept = some b →
      latchBlock s l k = b) ∧
    (e.tagUsed = .pass →
      (e.health = .suspect ∨ srcValid s e.src = false ∨
        (∀ l' k', e.src = .ring (laneRing l' k') →
          ((s.readers.look l').tracks.look k').kept = none)) →
      ∀ i, (latchBlock s l k).look i = 0) ∧
    (∀ n c, e.tagUsed = .record n → (s.tags.look n).content = some c → c.label.length ≤ 16 →
      let b (i : Nat) : Byte := ((List.finRange 32).map fun j => (latchBlock s l k).look j).getD i 0
      b 0 = c.kind ∧ b 1 = BitVec.ofNat 8 c.label.length ∧
      (∀ i, i < 16 → b (2 + i) = c.label.getD i 0) ∧
      (b 18).toNat * 256 + (b 19).toNat = e.src.number ∧
      b 20 = classCode (s.lanes.look l).expected ∧
      b 21 = (if srcValid s e.src = true ∧ e.health = .good then 1 else 0) ∧
      (∀ i : Fin 8, b (22 + i.val) = c.user.look i) ∧
      (b 30).toNat * 256 + (b 31).toNat =
        (((List.range 30).map fun i => (b i).toNat).sum) % 65536)

/-! ## Tag records, faults and saves -/

/-- R135, R137, R138, R177: WRITE TAG replaces every stored field of a record that is free, authorless or the
caller's own; FREE TAG frees one whose count is 0, for its author or the senior port; READ TAG answers its
fields. A count is never touched. An index outside 0..63 is refused with BAD_ARG. -/
def Obligations.TagCommandsActOnOneRecord : Prop :=
  ∀ (c : CpId) (tag kind len : Byte) (lab : Table Byte 16) (user : Table Byte 8) (n : TagId)
    (b : Byte) (text : List Byte) (s : State), Takes s c →
    (64 ≤ b.toNat →
      exec (.writeTag c tag b kind len lab user) s = .next (replied s c 0x38 tag .badArg [] s) ∧
      exec (.freeTag c tag b) s = .next (replied s c 0x39 tag .badArg [] s) ∧
      exec (.readTag c tag b) s = .next (replied s c 0x3A tag .badArg [] s)) ∧
    (b.toNat = n.val →
    text = ((List.finRange 16).map fun i => lab.look i).take len.toNat →
    (3 < kind.toNat ∨ 16 < len.toNat ∨ (∃ x ∈ text, x.toNat < 0x20 ∨ 0x7E < x.toNat) →
      exec (.writeTag c tag b kind len lab user) s =
        .next (replied s c 0x38 tag .badArg [] s)) ∧
    (kind.toNat ≤ 3 → len.toNat ≤ 16 → (∀ x ∈ text, 0x20 ≤ x.toNat ∧ x.toNat ≤ 0x7E) →
      ((s.tags.look n).author = none ∨ (s.tags.look n).author = some c →
        exec (.writeTag c tag b kind len lab user) s =
          .next (replied s c 0x38 tag .ok (numBytes (s.tags.look n).count)
            (modTag n (fun r => { r with content := some ⟨kind, text, user, some c⟩ }) s))) ∧
      (∀ k, k ≠ c → (s.tags.look n).author = some k →
        exec (.writeTag c tag b kind len lab user) s =
          .next (replied s c 0x38 tag .notOwner [] s))) ∧
    ((s.tags.look n).content = none →
      exec (.freeTag c tag b) s = .next (replied s c 0x39 tag .empty [] s)) ∧
    (∀ x, (s.tags.look n).content = some x →
      (x.author ≠ some c → s.senior ≠ some c →
        exec (.freeTag c tag b) s = .next (replied s c 0x39 tag .notOwner [] s)) ∧
      (x.author = some c ∨ s.senior = some c →
        ((s.tags.look n).count ≠ 0 →
          exec (.freeTag c tag b) s = .next (replied s c 0x39 tag .inUse [] s)) ∧
        ((s.tags.look n).count = 0 → exec (.freeTag c tag b) s =
          .next (replied s c 0x39 tag .ok []
            (modTag n (fun r => { r with content := none }) s))))) ∧
    exec (.readTag c tag b) s = .next (replied s c 0x3A tag .ok
      (match (s.tags.look n).content with
        | none => List.replicate 28 0 ++ numBytes (s.tags.look n).count
        | some x => [1, x.kind, BitVec.ofNat 8 x.label.length] ++ padBytes 16 x.label ++
          ((List.finRange 8).map fun i => x.user.look i) ++ [cpCode x.author] ++
          numBytes (s.tags.look n).count) s))

/-- R158, R159, R160, R175: READ FAULTS answers the flag vector, the conditions, the first-suspect record, the
line mask and the line; CLEAR FAULTS clears the named flags, sets a named condition flag again where its
condition holds, as a new setting, which each port receives FAULT for where its mask enables the group (R152), and
with ENTRY_CHECK removes the first-suspect record. A nonzero eighth
selection byte is refused with BAD_ARG. -/
def Obligations.FaultCommandsReadAndClear : Prop :=
  ∀ (c : CpId) (tag : Byte) (sel : BitVec 64) (s : State), Takes s c →
    (∃ v : List Byte, v.length = 13 ∧
      exec (.readFaults c tag) s = .next (replied s c 0x40 tag .ok v s) ∧
      (∀ f : FaultFlag, (v.getD (f.bit / 8) 0).getLsbD (f.bit % 8) = flagSet s f) ∧
      (∀ l : LaneId, (v.getD 7 0).getLsbD l.val = decide ((s.writers.look l).crowding ≠ .none)) ∧
      (∀ p : SapId, (v.getD 8 0).getLsbD p.val = !(s.saps.look p).present) ∧
      v.getD 9 0 = (if s.firstSuspect.isSome then 1 else 0) ∧
      (∀ d, s.firstSuspect = some d → (v.getD 10 0).toNat = d.val) ∧
      v.getD 11 0 = s.lineMask.setWidth 8 ∧ v.getD 12 0 = boolByte (faultLine s)) ∧
    (sel.extractLsb' 56 8 ≠ 0 → exec (.clearFaults c tag sel) s =
      .next (replied s c 0x41 tag .badArg [] s)) ∧
    (sel.extractLsb' 56 8 = 0 → ∃ t, exec (.clearFaults c tag sel) s = .next t ∧
      t = { s with flags := t.flags, firstSuspect := t.firstSuspect, ports := t.ports } ∧
      (∀ f : FaultFlag, flagSet t f = true ↔
        (flagSet s f = true ∧ sel.getLsbD f.bit = false) ∨
        (sel.getLsbD f.bit = true ∧
          ((∃ l, f = .crowded l ∧ (s.writers.look l).crowding ≠ .none) ∨
            ∃ p, f = .portClockLost p ∧ (s.saps.look p).present = false))) ∧
      t.firstSuspect = (if sel.getLsbD 47 then none else s.firstSuspect) ∧
      (∀ k, noticeSet t k .fault = true ↔ noticeSet s k .fault = true ∨
        ∃ f ∈ conditionFlags s, sel.getLsbD f.bit = true ∧
          (s.ports.look k).faultMask.getLsbD f.group.bit = true) ∧
      PortGains [.fault]
        (repliedPort s c ⟨0x41, tag, .ok, false, flagBytes t ++ suspectBytes t⟩ (s.ports.look c))
        (t.ports.look c) ∧
      (∀ k, k ≠ c → PortGains [.fault] (s.ports.look k) (t.ports.look k)))

/-- R156, R167: a save of port `c` has failed: the response SAVE_FAILED, with the overrun mark (R148), waits in
the slot that was EXECUTING, and SCENE_SAVE_FAIL is set, which each port receives FAULT for as R152 says.
Nothing else of any port changes, and no other flag. -/
def SaveFailed (c : CpId) (code tag : Byte) (s t : State) : Prop :=
  PortGains [.fault] { s.ports.look c with
    slot := .answered ⟨code, tag, .saveFailed, (s.ports.look c).overrunMark, []⟩
    overrunMark := false } (t.ports.look c) ∧
  (∀ k, k ≠ c → PortGains [.fault] (s.ports.look k) (t.ports.look k)) ∧
  (∀ k, FaultHanded s t k) ∧
  ∀ f, flagSet t f = true ↔ f = .sceneSaveFail ∨ flagSet s f = true

/-- R95, R165, R166, R167: SAVE SCENE takes the snapshot and keeps the slot EXECUTING; SAVE_COMPLETE within 400
ms writes the image and answers OK, and otherwise, as at SAVE_TIMEOUT, the save fails with SAVE_FAILED and
SCENE_SAVE_FAIL, which a port receives FAULT for where it is newly set and its mask enables the group (R152);
nothing else of any port changes, but for the caller's slot and overrun mark. That a field which an upset left
out of range and a later change made part of a GOOD, matching entry is taken as stored (log 44), that the image
is torn from the snapshot on (log 32) and that at exactly 400 ms either may come (log 22) are the model's
choices. -/
def Obligations.SaveRunsToItsEnd : Prop :=
  ∀ (c : CpId) (tag : Byte) (ok : Bool) (s : State),
    (Takes s c → s.saving.isSome = true → exec (.saveScene c tag) s =
      .next (replied s c 0x48 tag .storeBusy [] s)) ∧
    (Takes s c → s.saving = none → s.saveGuard = true → s.senior ≠ some c →
      exec (.saveScene c tag) s = .next (replied s c 0x48 tag .guarded [] s)) ∧
    (Takes s c → s.saving = none → s.saveGuard = false ∨ s.senior = some c →
      ∃ t x, exec (.saveScene c tag) s = .next t ∧
        t = { s with ports := t.ports, store := .torn, saving := some ⟨c, x, s.now⟩ } ∧
        t.ports.look c = { s.ports.look c with
          slot := .executing 0x48 tag, transaction := none
          shifted := (fixed s c).summary :: List.replicate 40 0
          liveness := .live, watchAt := s.now } ∧
        (∀ k, k ≠ c → t.ports.look k = s.ports.look k) ∧
        x.claims = s.holders ∧ x.toneLevel = s.toneLevel ∧ x.lateMs = s.lateMs ∧
        x.lostSeconds = s.lostSeconds ∧ x.lineMask = s.lineMask ∧ x.saveGuard = s.saveGuard ∧
        (∀ n, x.tags.look n = (s.tags.look n).content) ∧
        (∀ p, x.refLanes.look p = (s.saps.look p).refLane) ∧
        (∀ l, (x.lanes.look l).enabled = decide ((s.lanes.look l).state ≠ .off) ∧
          (x.lanes.look l).expected = (s.lanes.look l).expected ∧
          (x.lanes.look l).plan = (s.lanes.look l).plan ∧
          (x.lanes.look l).parkMode = (s.lanes.look l).parkMode ∧
          (x.lanes.look l).coastLimit = (s.lanes.look l).coastLimit) ∧
        (∀ d, ((s.entries.look d).health = .good → (s.entries.look d).matches = true →
            x.patch.look d = ⟨(s.entries.look d).source, (s.entries.look d).tag,
              (s.entries.look d).delay⟩) ∧
          ((s.entries.look d).health = .suspect ∨ (s.entries.look d).matches = false →
            x.patch.look d = ⟨257, 0x40, 64⟩))) ∧
    (∀ v code, s.saving = some v → v.caller = c →
      (s.ports.look c).slot = .executing code tag →
      (ok = true → s.now ≤ v.startedAt + 400 * 768 →
        ∃ t, exec (.saveComplete ok) s = .next t ∧
          t = { s with ports := t.ports, saving := none, store := t.store } ∧
          (v.snapshot.inRange = true → chosenScene t.store = (v.snapshot, .image)) ∧
          t.ports.look c = { s.ports.look c with
            slot := .answered ⟨code, tag, .ok, (s.ports.look c).overrunMark, []⟩
            overrunMark := false } ∧
          (∀ k, k ≠ c → t.ports.look k = s.ports.look k)) ∧
      (ok = false ∨ v.startedAt + 400 * 768 < s.now →
        ∃ t, exec (.saveComplete ok) s = .next t ∧
          t = { s with ports := t.ports, saving := none, store := .torn, flags := t.flags } ∧
          SaveFailed c code tag s t) ∧
      (v.startedAt + 400 * 768 ≤ s.now →
        ∃ t, exec .saveTimeout s = .next t ∧
          t = { s with ports := t.ports, saving := none, store := .torn, flags := t.flags } ∧
          SaveFailed c code tag s t))
end

