-- ==== Sys2Proof/Laws/State.lean ====
section
/-! SUPPORT. What an update of one unit of a bank leaves: the unit it changes, the units beside it, and
every other field of the state. All by definition. -/

namespace Sys2Proof.Machine

/-! ## modLane -/

section
variable (l : LaneId) (f : Lane → Lane) (s : State)

@[simp] theorem modLane_look_self : (modLane l f s).lanes.look l = f (s.lanes.look l) := by
  simp [modLane]

theorem modLane_look (k : LaneId) :
    (modLane l f s).lanes.look k = if l = k then f (s.lanes.look l) else s.lanes.look k := by
  simp [modLane, Table.look_put]

@[simp] theorem modLane_pending : (modLane l f s).pending = s.pending := rfl
@[simp] theorem modLane_now : (modLane l f s).now = s.now := rfl
@[simp] theorem modLane_choices : (modLane l f s).choices = s.choices := rfl
@[simp] theorem modLane_phase : (modLane l f s).phase = s.phase := rfl
@[simp] theorem modLane_resetLow : (modLane l f s).resetLow = s.resetLow := rfl
@[simp] theorem modLane_resetAt : (modLane l f s).resetAt = s.resetAt := rfl
@[simp] theorem modLane_senior : (modLane l f s).senior = s.senior := rfl
@[simp] theorem modLane_readers : (modLane l f s).readers = s.readers := rfl
@[simp] theorem modLane_writers : (modLane l f s).writers = s.writers := rfl
@[simp] theorem modLane_mem : (modLane l f s).mem = s.mem := rfl
@[simp] theorem modLane_writeIndex : (modLane l f s).writeIndex = s.writeIndex := rfl
@[simp] theorem modLane_toneLevel : (modLane l f s).toneLevel = s.toneLevel := rfl
@[simp] theorem modLane_saps : (modLane l f s).saps = s.saps := rfl
@[simp] theorem modLane_entries : (modLane l f s).entries = s.entries := rfl
@[simp] theorem modLane_scrubPos : (modLane l f s).scrubPos = s.scrubPos := rfl
@[simp] theorem modLane_scrubAt : (modLane l f s).scrubAt = s.scrubAt := rfl
@[simp] theorem modLane_holders : (modLane l f s).holders = s.holders := rfl
@[simp] theorem modLane_lateMs : (modLane l f s).lateMs = s.lateMs := rfl
@[simp] theorem modLane_lostSeconds : (modLane l f s).lostSeconds = s.lostSeconds := rfl
@[simp] theorem modLane_takes : (modLane l f s).takes = s.takes := rfl
@[simp] theorem modLane_tags : (modLane l f s).tags = s.tags := rfl
@[simp] theorem modLane_ports : (modLane l f s).ports = s.ports := rfl
@[simp] theorem modLane_flags : (modLane l f s).flags = s.flags := rfl
@[simp] theorem modLane_firstSuspect : (modLane l f s).firstSuspect = s.firstSuspect := rfl
@[simp] theorem modLane_lineMask : (modLane l f s).lineMask = s.lineMask := rfl
@[simp] theorem modLane_store : (modLane l f s).store = s.store := rfl
@[simp] theorem modLane_saving : (modLane l f s).saving = s.saving := rfl
@[simp] theorem modLane_saveGuard : (modLane l f s).saveGuard = s.saveGuard := rfl
@[simp] theorem modLane_loadOutcome : (modLane l f s).loadOutcome = s.loadOutcome := rfl

end

@[simp] theorem modLane_look_ne {l k : LaneId} (f : Lane → Lane) (s : State) (h : l ≠ k) :
    (modLane l f s).lanes.look k = s.lanes.look k := by
  simp [modLane, h]

/-! ## modReader -/

section
variable (l : LaneId) (f : Reader → Reader) (s : State)

@[simp] theorem modReader_look_self : (modReader l f s).readers.look l = f (s.readers.look l) := by
  simp [modReader]

theorem modReader_look (k : LaneId) :
    (modReader l f s).readers.look k = if l = k then f (s.readers.look l) else s.readers.look k := by
  simp [modReader, Table.look_put]

@[simp] theorem modReader_pending : (modReader l f s).pending = s.pending := rfl
@[simp] theorem modReader_now : (modReader l f s).now = s.now := rfl
@[simp] theorem modReader_choices : (modReader l f s).choices = s.choices := rfl
@[simp] theorem modReader_phase : (modReader l f s).phase = s.phase := rfl
@[simp] theorem modReader_resetLow : (modReader l f s).resetLow = s.resetLow := rfl
@[simp] theorem modReader_resetAt : (modReader l f s).resetAt = s.resetAt := rfl
@[simp] theorem modReader_senior : (modReader l f s).senior = s.senior := rfl
@[simp] theorem modReader_lanes : (modReader l f s).lanes = s.lanes := rfl
@[simp] theorem modReader_writers : (modReader l f s).writers = s.writers := rfl
@[simp] theorem modReader_mem : (modReader l f s).mem = s.mem := rfl
@[simp] theorem modReader_writeIndex : (modReader l f s).writeIndex = s.writeIndex := rfl
@[simp] theorem modReader_toneLevel : (modReader l f s).toneLevel = s.toneLevel := rfl
@[simp] theorem modReader_saps : (modReader l f s).saps = s.saps := rfl
@[simp] theorem modReader_entries : (modReader l f s).entries = s.entries := rfl
@[simp] theorem modReader_scrubPos : (modReader l f s).scrubPos = s.scrubPos := rfl
@[simp] theorem modReader_scrubAt : (modReader l f s).scrubAt = s.scrubAt := rfl
@[simp] theorem modReader_holders : (modReader l f s).holders = s.holders := rfl
@[simp] theorem modReader_lateMs : (modReader l f s).lateMs = s.lateMs := rfl
@[simp] theorem modReader_lostSeconds : (modReader l f s).lostSeconds = s.lostSeconds := rfl
@[simp] theorem modReader_takes : (modReader l f s).takes = s.takes := rfl
@[simp] theorem modReader_tags : (modReader l f s).tags = s.tags := rfl
@[simp] theorem modReader_ports : (modReader l f s).ports = s.ports := rfl
@[simp] theorem modReader_flags : (modReader l f s).flags = s.flags := rfl
@[simp] theorem modReader_firstSuspect : (modReader l f s).firstSuspect = s.firstSuspect := rfl
@[simp] theorem modReader_lineMask : (modReader l f s).lineMask = s.lineMask := rfl
@[simp] theorem modReader_store : (modReader l f s).store = s.store := rfl
@[simp] theorem modReader_saving : (modReader l f s).saving = s.saving := rfl
@[simp] theorem modReader_saveGuard : (modReader l f s).saveGuard = s.saveGuard := rfl
@[simp] theorem modReader_loadOutcome : (modReader l f s).loadOutcome = s.loadOutcome := rfl

end

@[simp] theorem modReader_look_ne {l k : LaneId} (f : Reader → Reader) (s : State) (h : l ≠ k) :
    (modReader l f s).readers.look k = s.readers.look k := by
  simp [modReader, h]

/-! ## modWriter -/

section
variable (l : LaneId) (f : Writer → Writer) (s : State)

@[simp] theorem modWriter_look_self : (modWriter l f s).writers.look l = f (s.writers.look l) := by
  simp [modWriter]

theorem modWriter_look (k : LaneId) :
    (modWriter l f s).writers.look k = if l = k then f (s.writers.look l) else s.writers.look k := by
  simp [modWriter, Table.look_put]

@[simp] theorem modWriter_pending : (modWriter l f s).pending = s.pending := rfl
@[simp] theorem modWriter_now : (modWriter l f s).now = s.now := rfl
@[simp] theorem modWriter_choices : (modWriter l f s).choices = s.choices := rfl
@[simp] theorem modWriter_phase : (modWriter l f s).phase = s.phase := rfl
@[simp] theorem modWriter_resetLow : (modWriter l f s).resetLow = s.resetLow := rfl
@[simp] theorem modWriter_resetAt : (modWriter l f s).resetAt = s.resetAt := rfl
@[simp] theorem modWriter_senior : (modWriter l f s).senior = s.senior := rfl
@[simp] theorem modWriter_lanes : (modWriter l f s).lanes = s.lanes := rfl
@[simp] theorem modWriter_readers : (modWriter l f s).readers = s.readers := rfl
@[simp] theorem modWriter_mem : (modWriter l f s).mem = s.mem := rfl
@[simp] theorem modWriter_writeIndex : (modWriter l f s).writeIndex = s.writeIndex := rfl
@[simp] theorem modWriter_toneLevel : (modWriter l f s).toneLevel = s.toneLevel := rfl
@[simp] theorem modWriter_saps : (modWriter l f s).saps = s.saps := rfl
@[simp] theorem modWriter_entries : (modWriter l f s).entries = s.entries := rfl
@[simp] theorem modWriter_scrubPos : (modWriter l f s).scrubPos = s.scrubPos := rfl
@[simp] theorem modWriter_scrubAt : (modWriter l f s).scrubAt = s.scrubAt := rfl
@[simp] theorem modWriter_holders : (modWriter l f s).holders = s.holders := rfl
@[simp] theorem modWriter_lateMs : (modWriter l f s).lateMs = s.lateMs := rfl
@[simp] theorem modWriter_lostSeconds : (modWriter l f s).lostSeconds = s.lostSeconds := rfl
@[simp] theorem modWriter_takes : (modWriter l f s).takes = s.takes := rfl
@[simp] theorem modWriter_tags : (modWriter l f s).tags = s.tags := rfl
@[simp] theorem modWriter_ports : (modWriter l f s).ports = s.ports := rfl
@[simp] theorem modWriter_flags : (modWriter l f s).flags = s.flags := rfl
@[simp] theorem modWriter_firstSuspect : (modWriter l f s).firstSuspect = s.firstSuspect := rfl
@[simp] theorem modWriter_lineMask : (modWriter l f s).lineMask = s.lineMask := rfl
@[simp] theorem modWriter_store : (modWriter l f s).store = s.store := rfl
@[simp] theorem modWriter_saving : (modWriter l f s).saving = s.saving := rfl
@[simp] theorem modWriter_saveGuard : (modWriter l f s).saveGuard = s.saveGuard := rfl
@[simp] theorem modWriter_loadOutcome : (modWriter l f s).loadOutcome = s.loadOutcome := rfl

end

@[simp] theorem modWriter_look_ne {l k : LaneId} (f : Writer → Writer) (s : State) (h : l ≠ k) :
    (modWriter l f s).writers.look k = s.writers.look k := by
  simp [modWriter, h]

/-! ## modSap -/

section
variable (p : SapId) (f : Sap → Sap) (s : State)

@[simp] theorem modSap_look_self : (modSap p f s).saps.look p = f (s.saps.look p) := by
  simp [modSap]

theorem modSap_look (k : SapId) :
    (modSap p f s).saps.look k = if p = k then f (s.saps.look p) else s.saps.look k := by
  simp [modSap, Table.look_put]

@[simp] theorem modSap_pending : (modSap p f s).pending = s.pending := rfl
@[simp] theorem modSap_now : (modSap p f s).now = s.now := rfl
@[simp] theorem modSap_choices : (modSap p f s).choices = s.choices := rfl
@[simp] theorem modSap_phase : (modSap p f s).phase = s.phase := rfl
@[simp] theorem modSap_resetLow : (modSap p f s).resetLow = s.resetLow := rfl
@[simp] theorem modSap_resetAt : (modSap p f s).resetAt = s.resetAt := rfl
@[simp] theorem modSap_senior : (modSap p f s).senior = s.senior := rfl
@[simp] theorem modSap_lanes : (modSap p f s).lanes = s.lanes := rfl
@[simp] theorem modSap_readers : (modSap p f s).readers = s.readers := rfl
@[simp] theorem modSap_writers : (modSap p f s).writers = s.writers := rfl
@[simp] theorem modSap_mem : (modSap p f s).mem = s.mem := rfl
@[simp] theorem modSap_writeIndex : (modSap p f s).writeIndex = s.writeIndex := rfl
@[simp] theorem modSap_toneLevel : (modSap p f s).toneLevel = s.toneLevel := rfl
@[simp] theorem modSap_entries : (modSap p f s).entries = s.entries := rfl
@[simp] theorem modSap_scrubPos : (modSap p f s).scrubPos = s.scrubPos := rfl
@[simp] theorem modSap_scrubAt : (modSap p f s).scrubAt = s.scrubAt := rfl
@[simp] theorem modSap_holders : (modSap p f s).holders = s.holders := rfl
@[simp] theorem modSap_lateMs : (modSap p f s).lateMs = s.lateMs := rfl
@[simp] theorem modSap_lostSeconds : (modSap p f s).lostSeconds = s.lostSeconds := rfl
@[simp] theorem modSap_takes : (modSap p f s).takes = s.takes := rfl
@[simp] theorem modSap_tags : (modSap p f s).tags = s.tags := rfl
@[simp] theorem modSap_ports : (modSap p f s).ports = s.ports := rfl
@[simp] theorem modSap_flags : (modSap p f s).flags = s.flags := rfl
@[simp] theorem modSap_firstSuspect : (modSap p f s).firstSuspect = s.firstSuspect := rfl
@[simp] theorem modSap_lineMask : (modSap p f s).lineMask = s.lineMask := rfl
@[simp] theorem modSap_store : (modSap p f s).store = s.store := rfl
@[simp] theorem modSap_saving : (modSap p f s).saving = s.saving := rfl
@[simp] theorem modSap_saveGuard : (modSap p f s).saveGuard = s.saveGuard := rfl
@[simp] theorem modSap_loadOutcome : (modSap p f s).loadOutcome = s.loadOutcome := rfl

end

@[simp] theorem modSap_look_ne {p k : SapId} (f : Sap → Sap) (s : State) (h : p ≠ k) :
    (modSap p f s).saps.look k = s.saps.look k := by
  simp [modSap, h]

/-! ## modEntry -/

section
variable (d : DestId) (f : Entry → Entry) (s : State)

@[simp] theorem modEntry_look_self : (modEntry d f s).entries.look d = f (s.entries.look d) := by
  simp [modEntry]

theorem modEntry_look (k : DestId) :
    (modEntry d f s).entries.look k = if d = k then f (s.entries.look d) else s.entries.look k := by
  simp [modEntry, Table.look_put]

@[simp] theorem modEntry_pending : (modEntry d f s).pending = s.pending := rfl
@[simp] theorem modEntry_now : (modEntry d f s).now = s.now := rfl
@[simp] theorem modEntry_choices : (modEntry d f s).choices = s.choices := rfl
@[simp] theorem modEntry_phase : (modEntry d f s).phase = s.phase := rfl
@[simp] theorem modEntry_resetLow : (modEntry d f s).resetLow = s.resetLow := rfl
@[simp] theorem modEntry_resetAt : (modEntry d f s).resetAt = s.resetAt := rfl
@[simp] theorem modEntry_senior : (modEntry d f s).senior = s.senior := rfl
@[simp] theorem modEntry_lanes : (modEntry d f s).lanes = s.lanes := rfl
@[simp] theorem modEntry_readers : (modEntry d f s).readers = s.readers := rfl
@[simp] theorem modEntry_writers : (modEntry d f s).writers = s.writers := rfl
@[simp] theorem modEntry_mem : (modEntry d f s).mem = s.mem := rfl
@[simp] theorem modEntry_writeIndex : (modEntry d f s).writeIndex = s.writeIndex := rfl
@[simp] theorem modEntry_toneLevel : (modEntry d f s).toneLevel = s.toneLevel := rfl
@[simp] theorem modEntry_saps : (modEntry d f s).saps = s.saps := rfl
@[simp] theorem modEntry_scrubPos : (modEntry d f s).scrubPos = s.scrubPos := rfl
@[simp] theorem modEntry_scrubAt : (modEntry d f s).scrubAt = s.scrubAt := rfl
@[simp] theorem modEntry_holders : (modEntry d f s).holders = s.holders := rfl
@[simp] theorem modEntry_lateMs : (modEntry d f s).lateMs = s.lateMs := rfl
@[simp] theorem modEntry_lostSeconds : (modEntry d f s).lostSeconds = s.lostSeconds := rfl
@[simp] theorem modEntry_takes : (modEntry d f s).takes = s.takes := rfl
@[simp] theorem modEntry_tags : (modEntry d f s).tags = s.tags := rfl
@[simp] theorem modEntry_ports : (modEntry d f s).ports = s.ports := rfl
@[simp] theorem modEntry_flags : (modEntry d f s).flags = s.flags := rfl
@[simp] theorem modEntry_firstSuspect : (modEntry d f s).firstSuspect = s.firstSuspect := rfl
@[simp] theorem modEntry_lineMask : (modEntry d f s).lineMask = s.lineMask := rfl
@[simp] theorem modEntry_store : (modEntry d f s).store = s.store := rfl
@[simp] theorem modEntry_saving : (modEntry d f s).saving = s.saving := rfl
@[simp] theorem modEntry_saveGuard : (modEntry d f s).saveGuard = s.saveGuard := rfl
@[simp] theorem modEntry_loadOutcome : (modEntry d f s).loadOutcome = s.loadOutcome := rfl

end

@[simp] theorem modEntry_look_ne {d k : DestId} (f : Entry → Entry) (s : State) (h : d ≠ k) :
    (modEntry d f s).entries.look k = s.entries.look k := by
  simp [modEntry, h]

/-! ## modTake -/

section
variable (l : LaneId) (f : TakeUnit → TakeUnit) (s : State)

@[simp] theorem modTake_look_self : (modTake l f s).takes.look l = f (s.takes.look l) := by
  simp [modTake]

theorem modTake_look (k : LaneId) :
    (modTake l f s).takes.look k = if l = k then f (s.takes.look l) else s.takes.look k := by
  simp [modTake, Table.look_put]

@[simp] theorem modTake_pending : (modTake l f s).pending = s.pending := rfl
@[simp] theorem modTake_now : (modTake l f s).now = s.now := rfl
@[simp] theorem modTake_choices : (modTake l f s).choices = s.choices := rfl
@[simp] theorem modTake_phase : (modTake l f s).phase = s.phase := rfl
@[simp] theorem modTake_resetLow : (modTake l f s).resetLow = s.resetLow := rfl
@[simp] theorem modTake_resetAt : (modTake l f s).resetAt = s.resetAt := rfl
@[simp] theorem modTake_senior : (modTake l f s).senior = s.senior := rfl
@[simp] theorem modTake_lanes : (modTake l f s).lanes = s.lanes := rfl
@[simp] theorem modTake_readers : (modTake l f s).readers = s.readers := rfl
@[simp] theorem modTake_writers : (modTake l f s).writers = s.writers := rfl
@[simp] theorem modTake_mem : (modTake l f s).mem = s.mem := rfl
@[simp] theorem modTake_writeIndex : (modTake l f s).writeIndex = s.writeIndex := rfl
@[simp] theorem modTake_toneLevel : (modTake l f s).toneLevel = s.toneLevel := rfl
@[simp] theorem modTake_saps : (modTake l f s).saps = s.saps := rfl
@[simp] theorem modTake_entries : (modTake l f s).entries = s.entries := rfl
@[simp] theorem modTake_scrubPos : (modTake l f s).scrubPos = s.scrubPos := rfl
@[simp] theorem modTake_scrubAt : (modTake l f s).scrubAt = s.scrubAt := rfl
@[simp] theorem modTake_holders : (modTake l f s).holders = s.holders := rfl
@[simp] theorem modTake_lateMs : (modTake l f s).lateMs = s.lateMs := rfl
@[simp] theorem modTake_lostSeconds : (modTake l f s).lostSeconds = s.lostSeconds := rfl
@[simp] theorem modTake_tags : (modTake l f s).tags = s.tags := rfl
@[simp] theorem modTake_ports : (modTake l f s).ports = s.ports := rfl
@[simp] theorem modTake_flags : (modTake l f s).flags = s.flags := rfl
@[simp] theorem modTake_firstSuspect : (modTake l f s).firstSuspect = s.firstSuspect := rfl
@[simp] theorem modTake_lineMask : (modTake l f s).lineMask = s.lineMask := rfl
@[simp] theorem modTake_store : (modTake l f s).store = s.store := rfl
@[simp] theorem modTake_saving : (modTake l f s).saving = s.saving := rfl
@[simp] theorem modTake_saveGuard : (modTake l f s).saveGuard = s.saveGuard := rfl
@[simp] theorem modTake_loadOutcome : (modTake l f s).loadOutcome = s.loadOutcome := rfl

end

@[simp] theorem modTake_look_ne {l k : LaneId} (f : TakeUnit → TakeUnit) (s : State) (h : l ≠ k) :
    (modTake l f s).takes.look k = s.takes.look k := by
  simp [modTake, h]

/-! ## modTag -/

section
variable (n : TagId) (f : TagRecord → TagRecord) (s : State)

@[simp] theorem modTag_look_self : (modTag n f s).tags.look n = f (s.tags.look n) := by
  simp [modTag]

theorem modTag_look (k : TagId) :
    (modTag n f s).tags.look k = if n = k then f (s.tags.look n) else s.tags.look k := by
  simp [modTag, Table.look_put]

@[simp] theorem modTag_pending : (modTag n f s).pending = s.pending := rfl
@[simp] theorem modTag_now : (modTag n f s).now = s.now := rfl
@[simp] theorem modTag_choices : (modTag n f s).choices = s.choices := rfl
@[simp] theorem modTag_phase : (modTag n f s).phase = s.phase := rfl
@[simp] theorem modTag_resetLow : (modTag n f s).resetLow = s.resetLow := rfl
@[simp] theorem modTag_resetAt : (modTag n f s).resetAt = s.resetAt := rfl
@[simp] theorem modTag_senior : (modTag n f s).senior = s.senior := rfl
@[simp] theorem modTag_lanes : (modTag n f s).lanes = s.lanes := rfl
@[simp] theorem modTag_readers : (modTag n f s).readers = s.readers := rfl
@[simp] theorem modTag_writers : (modTag n f s).writers = s.writers := rfl
@[simp] theorem modTag_mem : (modTag n f s).mem = s.mem := rfl
@[simp] theorem modTag_writeIndex : (modTag n f s).writeIndex = s.writeIndex := rfl
@[simp] theorem modTag_toneLevel : (modTag n f s).toneLevel = s.toneLevel := rfl
@[simp] theorem modTag_saps : (modTag n f s).saps = s.saps := rfl
@[simp] theorem modTag_entries : (modTag n f s).entries = s.entries := rfl
@[simp] theorem modTag_scrubPos : (modTag n f s).scrubPos = s.scrubPos := rfl
@[simp] theorem modTag_scrubAt : (modTag n f s).scrubAt = s.scrubAt := rfl
@[simp] theorem modTag_holders : (modTag n f s).holders = s.holders := rfl
@[simp] theorem modTag_lateMs : (modTag n f s).lateMs = s.lateMs := rfl
@[simp] theorem modTag_lostSeconds : (modTag n f s).lostSeconds = s.lostSeconds := rfl
@[simp] theorem modTag_takes : (modTag n f s).takes = s.takes := rfl
@[simp] theorem modTag_ports : (modTag n f s).ports = s.ports := rfl
@[simp] theorem modTag_flags : (modTag n f s).flags = s.flags := rfl
@[simp] theorem modTag_firstSuspect : (modTag n f s).firstSuspect = s.firstSuspect := rfl
@[simp] theorem modTag_lineMask : (modTag n f s).lineMask = s.lineMask := rfl
@[simp] theorem modTag_store : (modTag n f s).store = s.store := rfl
@[simp] theorem modTag_saving : (modTag n f s).saving = s.saving := rfl
@[simp] theorem modTag_saveGuard : (modTag n f s).saveGuard = s.saveGuard := rfl
@[simp] theorem modTag_loadOutcome : (modTag n f s).loadOutcome = s.loadOutcome := rfl

end

@[simp] theorem modTag_look_ne {n k : TagId} (f : TagRecord → TagRecord) (s : State) (h : n ≠ k) :
    (modTag n f s).tags.look k = s.tags.look k := by
  simp [modTag, h]

/-! ## modPort -/

section
variable (c : CpId) (f : CtrlPort → CtrlPort) (s : State)

@[simp] theorem modPort_look_self : (modPort c f s).ports.look c = f (s.ports.look c) := by
  simp [modPort]

theorem modPort_look (k : CpId) :
    (modPort c f s).ports.look k = if c = k then f (s.ports.look c) else s.ports.look k := by
  simp [modPort, Table.look_put]

@[simp] theorem modPort_pending : (modPort c f s).pending = s.pending := rfl
@[simp] theorem modPort_now : (modPort c f s).now = s.now := rfl
@[simp] theorem modPort_choices : (modPort c f s).choices = s.choices := rfl
@[simp] theorem modPort_phase : (modPort c f s).phase = s.phase := rfl
@[simp] theorem modPort_resetLow : (modPort c f s).resetLow = s.resetLow := rfl
@[simp] theorem modPort_resetAt : (modPort c f s).resetAt = s.resetAt := rfl
@[simp] theorem modPort_senior : (modPort c f s).senior = s.senior := rfl
@[simp] theorem modPort_lanes : (modPort c f s).lanes = s.lanes := rfl
@[simp] theorem modPort_readers : (modPort c f s).readers = s.readers := rfl
@[simp] theorem modPort_writers : (modPort c f s).writers = s.writers := rfl
@[simp] theorem modPort_mem : (modPort c f s).mem = s.mem := rfl
@[simp] theorem modPort_writeIndex : (modPort c f s).writeIndex = s.writeIndex := rfl
@[simp] theorem modPort_toneLevel : (modPort c f s).toneLevel = s.toneLevel := rfl
@[simp] theorem modPort_saps : (modPort c f s).saps = s.saps := rfl
@[simp] theorem modPort_entries : (modPort c f s).entries = s.entries := rfl
@[simp] theorem modPort_scrubPos : (modPort c f s).scrubPos = s.scrubPos := rfl
@[simp] theorem modPort_scrubAt : (modPort c f s).scrubAt = s.scrubAt := rfl
@[simp] theorem modPort_holders : (modPort c f s).holders = s.holders := rfl
@[simp] theorem modPort_lateMs : (modPort c f s).lateMs = s.lateMs := rfl
@[simp] theorem modPort_lostSeconds : (modPort c f s).lostSeconds = s.lostSeconds := rfl
@[simp] theorem modPort_takes : (modPort c f s).takes = s.takes := rfl
@[simp] theorem modPort_tags : (modPort c f s).tags = s.tags := rfl
@[simp] theorem modPort_flags : (modPort c f s).flags = s.flags := rfl
@[simp] theorem modPort_firstSuspect : (modPort c f s).firstSuspect = s.firstSuspect := rfl
@[simp] theorem modPort_lineMask : (modPort c f s).lineMask = s.lineMask := rfl
@[simp] theorem modPort_store : (modPort c f s).store = s.store := rfl
@[simp] theorem modPort_saving : (modPort c f s).saving = s.saving := rfl
@[simp] theorem modPort_saveGuard : (modPort c f s).saveGuard = s.saveGuard := rfl
@[simp] theorem modPort_loadOutcome : (modPort c f s).loadOutcome = s.loadOutcome := rfl

end

@[simp] theorem modPort_look_ne {c k : CpId} (f : CtrlPort → CtrlPort) (s : State) (h : c ≠ k) :
    (modPort c f s).ports.look k = s.ports.look k := by
  simp [modPort, h]

/-! ## setHolder -/

section
variable (i : ItemId) (h : Option CpId) (s : State)

@[simp] theorem setHolder_look_self : (setHolder i h s).holders.look i = h := by
  simp [setHolder]

theorem setHolder_look (k : ItemId) :
    (setHolder i h s).holders.look k = if i = k then h else s.holders.look k := by
  simp [setHolder, Table.look_put]

@[simp] theorem setHolder_pending : (setHolder i h s).pending = s.pending := rfl
@[simp] theorem setHolder_now : (setHolder i h s).now = s.now := rfl
@[simp] theorem setHolder_choices : (setHolder i h s).choices = s.choices := rfl
@[simp] theorem setHolder_phase : (setHolder i h s).phase = s.phase := rfl
@[simp] theorem setHolder_resetLow : (setHolder i h s).resetLow = s.resetLow := rfl
@[simp] theorem setHolder_resetAt : (setHolder i h s).resetAt = s.resetAt := rfl
@[simp] theorem setHolder_senior : (setHolder i h s).senior = s.senior := rfl
@[simp] theorem setHolder_lanes : (setHolder i h s).lanes = s.lanes := rfl
@[simp] theorem setHolder_readers : (setHolder i h s).readers = s.readers := rfl
@[simp] theorem setHolder_writers : (setHolder i h s).writers = s.writers := rfl
@[simp] theorem setHolder_mem : (setHolder i h s).mem = s.mem := rfl
@[simp] theorem setHolder_writeIndex : (setHolder i h s).writeIndex = s.writeIndex := rfl
@[simp] theorem setHolder_toneLevel : (setHolder i h s).toneLevel = s.toneLevel := rfl
@[simp] theorem setHolder_saps : (setHolder i h s).saps = s.saps := rfl
@[simp] theorem setHolder_entries : (setHolder i h s).entries = s.entries := rfl
@[simp] theorem setHolder_scrubPos : (setHolder i h s).scrubPos = s.scrubPos := rfl
@[simp] theorem setHolder_scrubAt : (setHolder i h s).scrubAt = s.scrubAt := rfl
@[simp] theorem setHolder_lateMs : (setHolder i h s).lateMs = s.lateMs := rfl
@[simp] theorem setHolder_lostSeconds : (setHolder i h s).lostSeconds = s.lostSeconds := rfl
@[simp] theorem setHolder_takes : (setHolder i h s).takes = s.takes := rfl
@[simp] theorem setHolder_tags : (setHolder i h s).tags = s.tags := rfl
@[simp] theorem setHolder_ports : (setHolder i h s).ports = s.ports := rfl
@[simp] theorem setHolder_flags : (setHolder i h s).flags = s.flags := rfl
@[simp] theorem setHolder_firstSuspect : (setHolder i h s).firstSuspect = s.firstSuspect := rfl
@[simp] theorem setHolder_lineMask : (setHolder i h s).lineMask = s.lineMask := rfl
@[simp] theorem setHolder_store : (setHolder i h s).store = s.store := rfl
@[simp] theorem setHolder_saving : (setHolder i h s).saving = s.saving := rfl
@[simp] theorem setHolder_saveGuard : (setHolder i h s).saveGuard = s.saveGuard := rfl
@[simp] theorem setHolder_loadOutcome : (setHolder i h s).loadOutcome = s.loadOutcome := rfl

end

end Sys2Proof.Machine
end

