-- ==== Sys2Proof/Laws/Ops.lean ====
section
/-! SUPPORT. The Sample Store's laws (a write is read back, other addresses are kept, the canonical form
is kept), and for each shared operation of Ops and Flags what it can change. -/

namespace Sys2Proof.Machine

/-! ## The Sample Store -/

theorem storeRead_eq_zero_of_forall_ne (m : List SampleCell) (a : Nat) (h : ∀ c ∈ m, c.1 ≠ a) :
    storeRead m a = 0 := by
  induction m with
  | nil => rfl
  | cons c t ih =>
    obtain ⟨k, v⟩ := c
    have hk : k ≠ a := h (k, v) (by simp)
    simp [storeRead, hk]
    exact ih fun c hc => h c (by simp [hc])

theorem SampleStore.wf_nil : SampleStore.wf [] := by simp [SampleStore.wf]

theorem SampleStore.wf_tail {c : SampleCell} {t : List SampleCell} (h : SampleStore.wf (c :: t)) :
    SampleStore.wf t :=
  ⟨(List.pairwise_cons.mp h.1).2, fun x hx => h.2 x (by simp [hx])⟩

/-- Every address in a written store is the written one or was there. -/
theorem mem_storeWrite {m : List SampleCell} {a : Nat} {v : Sample} {c : SampleCell}
    (h : c ∈ storeWrite m a v) : c = (a, v) ∨ c ∈ m := by
  induction m with
  | nil =>
    rw [storeWrite] at h
    split at h
    · exact .inr h
    · exact .inl (List.mem_singleton.mp h)
  | cons x t ih =>
    obtain ⟨k, w⟩ := x
    simp only [storeWrite] at h
    split at h
    · split at h
      · exact .inr h
      · simpa using h
    · split at h
      · split at h
        · exact .inr (by simp [h])
        · rcases List.mem_cons.mp h with h | h
          · exact .inl h
          · exact .inr (by simp [h])
      · rcases List.mem_cons.mp h with h | h
        · exact .inr (by simp [h])
        · rcases ih h with h | h
          · exact .inl h
          · exact .inr (by simp [h])

/-- A write keeps the canonical form. -/
theorem storeWrite_wf {m : List SampleCell} (a : Nat) (v : Sample) (h : SampleStore.wf m) :
    SampleStore.wf (storeWrite m a v) := by
  induction m with
  | nil =>
    rw [storeWrite]
    split
    · exact SampleStore.wf_nil
    · rename_i hv
      exact ⟨List.pairwise_singleton _ _, fun c hc => by rw [List.mem_singleton.mp hc]; exact hv⟩
  | cons x t ih =>
    obtain ⟨k, w⟩ := x
    have hp := List.pairwise_cons.mp h.1
    have hw : w ≠ 0 := h.2 (k, w) (by simp)
    have ht := SampleStore.wf_tail h
    simp only [storeWrite]
    split
    · rename_i hlt
      split
      · exact h
      · rename_i hv
        refine ⟨List.pairwise_cons.mpr ⟨fun c hc => ?_, h.1⟩, fun c hc => ?_⟩
        · rcases List.mem_cons.mp hc with rfl | hc
          · exact hlt
          · exact Nat.lt_trans hlt (hp.1 c hc)
        · rcases List.mem_cons.mp hc with rfl | hc
          · exact hv
          · exact h.2 c hc
    · split
      · rename_i heq
        split
        · exact ht
        · rename_i hv
          refine ⟨List.pairwise_cons.mpr ⟨fun c hc => ?_, hp.2⟩, fun c hc => ?_⟩
          · show a < c.1
            rw [heq]; exact hp.1 c hc
          · rcases List.mem_cons.mp hc with rfl | hc
            · exact hv
            · exact ht.2 c hc
      · rename_i hlt hne
        refine ⟨List.pairwise_cons.mpr ⟨fun c hc => ?_, (ih ht).1⟩, fun c hc => ?_⟩
        · rcases mem_storeWrite hc with rfl | hc
          · show k < a
            omega
          · exact hp.1 c hc
        · rcases List.mem_cons.mp hc with rfl | hc
          · exact hw
          · exact (ih ht).2 c hc

/-- A list without some of its cells keeps the canonical form. -/
theorem filter_wf {m : List SampleCell} (p : SampleCell → Bool) (h : SampleStore.wf m) :
    SampleStore.wf (m.filter p) :=
  ⟨h.1.filter p, fun c hc => h.2 c (List.mem_filter.mp hc).1⟩

/-- A written address reads the written sample. -/
theorem storeRead_storeWrite_self {m : List SampleCell} (a : Nat) (v : Sample)
    (h : SampleStore.wf m) : storeRead (storeWrite m a v) a = v := by
  induction m with
  | nil =>
    rw [storeWrite]
    split
    · rename_i hv; rw [hv]; rfl
    · simp [storeRead]
  | cons x t ih =>
    obtain ⟨k, w⟩ := x
    have hp := List.pairwise_cons.mp h.1
    have ht := SampleStore.wf_tail h
    simp only [storeWrite]
    split
    · rename_i hlt
      split
      · rename_i hv
        rw [hv]
        apply storeRead_eq_zero_of_forall_ne
        intro c hc
        rcases List.mem_cons.mp hc with rfl | hc
        · show k ≠ a
          omega
        · have h2 : k < c.1 := hp.1 c hc
          omega
      · simp [storeRead]
    · split
      · rename_i heq
        split
        · rename_i hv
          rw [hv]
          apply storeRead_eq_zero_of_forall_ne
          intro c hc
          have h2 : k < c.1 := hp.1 c hc
          omega
        · simp [storeRead]
      · rename_i hlt hne
        have hka : k ≠ a := fun e => hne e.symm
        simp [storeRead, hka, ih ht]

/-- Another address reads as before. -/
theorem storeRead_storeWrite_ne {m : List SampleCell} {a b : Nat} (v : Sample)
    (hne : b ≠ a) : storeRead (storeWrite m a v) b = storeRead m b := by
  induction m with
  | nil =>
    rw [storeWrite]
    split
    · rfl
    · simp [storeRead, hne.symm]
  | cons x t ih =>
    obtain ⟨k, w⟩ := x
    simp only [storeWrite]
    split
    · split
      · rfl
      · simp [storeRead, hne.symm]
    · split
      · rename_i heq
        have hkb : k ≠ b := by omega
        split
        · simp [storeRead, hkb]
        · simp [storeRead, hkb, hne.symm]
      · simp only [storeRead]
        split
        · rfl
        · exact ih

/-- What a list reads as without the cells that a test on the address drops. -/
theorem storeRead_filter (m : List SampleCell) (p : Nat → Bool) (a : Nat) :
    storeRead (m.filter fun c => !p c.1) a = if p a then 0 else storeRead m a := by
  induction m with
  | nil => simp [storeRead]
  | cons c t ih =>
    obtain ⟨k, w⟩ := c
    by_cases hk : p k
    · by_cases ha : k = a
      · subst ha
        simp [hk, ih]
      · simp [hk, ih, storeRead, ha]
    · by_cases ha : k = a
      · subst ha
        simp [hk, storeRead]
      · simp [hk, ih, storeRead, ha]

/-! ## What each operation can change -/

theorem writeSample_frame (r : RingId) (x : Sample) (s : State) :
    ∃ m w, writeSample r x s = { s with mem := m, writeIndex := w } := ⟨_, _, rfl⟩

theorem padSource_frame (r : RingId) (n : Nat) (s : State) :
    ∃ m w, padSource r n s = { s with mem := m, writeIndex := w } := ⟨_, _, rfl⟩

/-- A write of one sample keeps the store's form. -/
theorem writeSample_wf (r : RingId) (x : Sample) {s : State} (h : SampleStore.wf s.mem) :
    SampleStore.wf (writeSample r x s).mem := storeWrite_wf _ _ h

/-- A padding keeps the store's form. -/
theorem padSource_wf (r : RingId) (n : Nat) {s : State} (h : SampleStore.wf s.mem) :
    SampleStore.wf (padSource r n s).mem := filter_wf _ h

/-- After a write the source's write index has advanced by 1 (R59). -/
theorem writeSample_index (r : RingId) (x : Sample) (s : State) :
    (writeSample r x s).writeIndex.look r = s.writeIndex.look r + 1 := by
  simp [writeSample]

/-- After a write the sample stands where the write index named (R59). -/
theorem writeSample_read (r : RingId) (x : Sample) {s : State} (h : SampleStore.wf s.mem) :
    ringSample (writeSample r x s) r (s.writeIndex.look r) = x :=
  storeRead_storeWrite_self _ _ h

/-- After a padding the source's write index has advanced by its length (R31). -/
theorem padSource_index (r : RingId) (n : Nat) (s : State) :
    (padSource r n s).writeIndex.look r = s.writeIndex.look r + BitVec.ofNat 12 n := by
  simp [padSource]

/-- After a padding an address reads 0 inside the padded span and as before outside it (R31). -/
theorem padSource_read (r : RingId) (n : Nat) (s : State) (a : Nat) :
    storeRead (padSource r n s).mem a =
      if inRingSpan r (s.writeIndex.look r) n a then 0 else storeRead s.mem a :=
  storeRead_filter _ _ _

theorem countUp_frame (t : TagRef) (s : State) : ∃ g, countUp t s = { s with tags := g } := by
  cases t <;> exact ⟨_, rfl⟩

theorem countDown_frame (t : TagRef) (s : State) : ∃ g, countDown t s = { s with tags := g } := by
  cases t <;> exact ⟨_, rfl⟩

theorem endChanges_frame (cs : List Change) (s : State) :
    ∃ g, endChanges cs s = { s with tags := g } := by
  induction cs generalizing s with
  | nil => exact ⟨s.tags, rfl⟩
  | cons c t ih =>
    obtain ⟨g, hg⟩ := countDown_frame (c.tag.getD .none) s
    obtain ⟨g', hg'⟩ := ih (endChange c s)
    refine ⟨g', ?_⟩
    show endChanges t (endChange c s) = _
    rw [hg', endChange, hg]

/-- The counts after a naming ends hang on the counts before it alone (R140). -/
theorem countDown_tags (r : TagRef) {s t : State} (h : s.tags = t.tags) :
    (countDown r s).tags = (countDown r t).tags := by
  unfold countDown
  split <;> simp [modTag, h]

/-- The counts after changes end hang on the counts before it alone (R113). -/
theorem endChanges_tags (cs : List Change) {s t : State} (h : s.tags = t.tags) :
    (endChanges cs s).tags = (endChanges cs t).tags := by
  induction cs generalizing s t with
  | nil => exact h
  | cons c cs ih => exact ih (countDown_tags _ h)

theorem setNotice_frame (c : CpId) (n : Notice) (s : State) :
    ∃ p, setNotice c n s = { s with ports := p } := ⟨_, rfl⟩

theorem handFault_frame (g : FaultGroup) (s : State) :
    ∃ p, handFault g s = { s with ports := p } := ⟨_, rfl⟩

theorem setFlag_frame (f : FaultFlag) (s : State) :
    ∃ v p, setFlag f s = { s with flags := v, ports := p } := by
  unfold setFlag
  split
  · exact ⟨s.flags, s.ports, rfl⟩
  · dsimp only
    split
    · exact ⟨_, _, rfl⟩
    · exact ⟨_, s.ports, rfl⟩

theorem laneNotice_frame (l : LaneId) (s : State) :
    ∃ p, laneNotice l s = { s with ports := p } := by
  unfold laneNotice
  split
  · split
    · exact ⟨_, rfl⟩
    · exact ⟨s.ports, rfl⟩
  · exact ⟨s.ports, rfl⟩

/-- A flag that is set is set, and every other flag is as it was (R156). -/
theorem setFlag_flags (f : FaultFlag) (s : State) :
    (setFlag f s).flags = s.flags ||| flagMask f := by
  unfold setFlag
  split
  · rename_i h
    apply BitVec.eq_of_getLsbD_eq
    intro i hi
    simp only [flagSet] at h
    by_cases e : i = f.bit
    · subst e; simp [h]
    · have e' : f.bit ≠ i := fun x => e x.symm
      simp [flagMask, BitVec.getLsbD_twoPow, e']
  · dsimp only
    split <;> rfl

/-! ## Take queues -/

/-- R124, R127: a timer loaded afresh touches neither queue nor staging. -/
theorem TakeUnit.reload_frame (t : TakeUnit) :
    ∃ m h f, t.reload = { t with timer := m, holdCommand := h, freshHead := f } := by
  unfold TakeUnit.reload
  split
  · exact ⟨_, _, _, rfl⟩
  · exact ⟨_, t.holdCommand, _, rfl⟩

/-- R123: a head that waits for the next switch point stands at count 0. -/
theorem TakeUnit.reload_fresh (t : TakeUnit) (h : t.reload.freshHead = true) :
    t.reload.timer = .counting 0 := by
  unfold TakeUnit.reload at h ⊢
  split at h
  · cases h
  · rename_i b _ e
    simp only [Bool.and_eq_true, decide_eq_true_eq] at h
    rw [← h.2]

end Sys2Proof.Machine
end

