-- ==== Sys2Proof/Laws/Commands.lean ====
section
/-! SUPPORT. What a command on a control port comes to: how a taken block is run, and the state that a
command leaves whose effect commutes with its own port's bookkeeping. -/

namespace Sys2Proof.Machine

/-- The port as a taken command's effect meets it: the transaction over, the port LIVE and its slot
EXECUTING. -/
def servedPort (s : State) (c : CpId) (code tag : Byte) (p : CtrlPort) : CtrlPort :=
  { p with
    transaction := none
    shifted := (fixed s c).summary :: List.replicate 40 0
    liveness := .live
    watchAt := s.now
    slot := .executing code tag }

/-- The state as a taken command's effect meets it. -/
def served (s : State) (c : CpId) (code tag : Byte) : State :=
  modPort c (servedPort s c code tag) s

/-- Two changes of one port are one. -/
theorem modPort_modPort (c : CpId) (f g : CtrlPort → CtrlPort) (s : State) :
    modPort c f (modPort c g s) = modPort c (fun p => f (g p)) s := by
  have h : (s.ports.put c (g (s.ports.look c))).put c (f (g (s.ports.look c))) =
      s.ports.put c (f (g (s.ports.look c))) := by
    apply Table.ext_look
    intro i
    by_cases e : c = i
    · subst e; simp
    · simp [e]
  simp only [modPort, Table.look_put_self]
  rw [h]

/-- A taken command runs its effect on the served state (R147). -/
theorem command_taken {s : State} {c : CpId} (h : Takes s c) (code tag : Byte) (effect : Effect) :
    command c code tag effect s =
      match (effect (served s c code tag)).2 with
      | some (result, payload) =>
        placeCompleted c code tag result payload (effect (served s c code tag)).1
      | none => (effect (served s c code tag)).1 := by
  obtain ⟨hp, hs⟩ := h
  have ha : awake s = true := by simp [awake, hp]
  have e : modPort c (fun p => { p with slot := .executing code tag })
      (refresh c (endTransaction c ((fixed s c).summary :: List.replicate 40 0) s)) =
      served s c code tag := by
    simp only [refresh, endTransaction, served, modPort_modPort, modPort_now]
    rfl
  have hns : ¬ s.phase = .starting := by simp [hp]
  have hw : command c code tag effect s = runCommand c code tag effect
      (endTransaction c ((fixed s c).summary :: List.replicate 40 0) s) := by
    unfold command writeEnds
    rw [if_pos ha]
    simp only [hns, if_false]
    cases hsl : (s.ports.look c).slot with
    | empty => rfl
    | executing a b => simp [hsl, Slot.isExecuting] at hs
    | answered r => rfl
  have hr : ∀ u, runCommand c code tag effect u =
      match (effect (modPort c (fun p => { p with slot := .executing code tag }) (refresh c u))).2 with
      | some (result, payload) => placeCompleted c code tag result payload
          (effect (modPort c (fun p => { p with slot := .executing code tag }) (refresh c u))).1
      | none => (effect (modPort c (fun p => { p with slot := .executing code tag }) (refresh c u))).1 :=
    fun _ => rfl
  exact hw.trans ((hr _).trans (congrArg (fun v => match (effect v).2 with
    | some (result, payload) => placeCompleted c code tag result payload (effect v).1
    | none => (effect v).1) e))

/-- A command whose effect answers, and commutes with its port's bookkeeping, leaves the state that
`replied` names. -/
theorem command_replied {s : State} {c : CpId} (h : Takes s c) (code tag : Byte) (effect : Effect)
    (r : Result) (payload : List Byte) (t : State)
    (he : effect (served s c code tag) =
      (modPort c (servedPort s c code tag) t, some (r, payload)))
    (hm : (t.ports.look c).overrunMark = (s.ports.look c).overrunMark) :
    command c code tag effect s = replied s c code tag r payload t := by
  rw [command_taken h, he]
  show placeCompleted c code tag r payload (modPort c (servedPort s c code tag) t) = _
  simp only [placeCompleted, modPort_modPort, replied]
  have e : (fun p : CtrlPort => { servedPort s c code tag p with
        slot := .answered ⟨code, tag, r, (servedPort s c code tag p).overrunMark, payload⟩
        overrunMark := false }) (t.ports.look c) =
      repliedPort s c ⟨code, tag, r, false, payload⟩ (t.ports.look c) := by
    simp [servedPort, repliedPort, hm]
  unfold modPort
  exact congrArg (fun q => { t with ports := t.ports.put c q }) e

/-- A refused command leaves everything but its port (R176). -/
theorem command_refused {s : State} {c : CpId} (h : Takes s c) (code tag : Byte) (effect : Effect)
    (r : Result) (he : effect (served s c code tag) = refuse r (served s c code tag)) :
    command c code tag effect s = replied s c code tag r [] s :=
  command_replied h code tag effect r [] s he rfl

/-- A command that only answers leaves everything but its port. -/
theorem command_answered {s : State} {c : CpId} (h : Takes s c) (code tag : Byte) (effect : Effect)
    (payload : List Byte)
    (he : effect (served s c code tag) = answer payload (served s c code tag)) :
    command c code tag effect s = replied s c code tag .ok payload s :=
  command_replied h code tag effect .ok payload s he rfl

/-! What the effect meets is what the caller left, beside its own port. -/

section
variable (s : State) (c : CpId) (code tag : Byte)
@[simp] theorem served_lanes : (served s c code tag).lanes = s.lanes := rfl
@[simp] theorem served_readers : (served s c code tag).readers = s.readers := rfl
@[simp] theorem served_writers : (served s c code tag).writers = s.writers := rfl
@[simp] theorem served_saps : (served s c code tag).saps = s.saps := rfl
@[simp] theorem served_entries : (served s c code tag).entries = s.entries := rfl
@[simp] theorem served_holders : (served s c code tag).holders = s.holders := rfl
@[simp] theorem served_takes : (served s c code tag).takes = s.takes := rfl
@[simp] theorem served_tags : (served s c code tag).tags = s.tags := rfl
@[simp] theorem served_senior : (served s c code tag).senior = s.senior := rfl
@[simp] theorem served_saving : (served s c code tag).saving = s.saving := rfl
@[simp] theorem served_flags : (served s c code tag).flags = s.flags := rfl
@[simp] theorem served_phase : (served s c code tag).phase = s.phase := rfl
@[simp] theorem served_now : (served s c code tag).now = s.now := rfl
end

/-- Every command on a port answers the next state that `command` gives. -/
theorem served_port (s : State) (c : CpId) (code tag : Byte) :
    (served s c code tag).ports.look c = servedPort s c code tag (s.ports.look c) := by
  simp [served]

/-- R145, R173: a SUMMARY_POLL whose byte selects a kind of transaction has no work (log 18). -/
theorem summaryPoll_selected (c : CpId) (bytes : List Byte) (s : State)
    (h : kindOf bytes ≠ .none) : summaryPoll c bytes s = s := by
  unfold summaryPoll
  simp [h]

/-- R145: a transaction of no kind shifts out the summary byte that was fixed, then zeros. -/
theorem summaryPoll_none (c : CpId) (bytes : List Byte) (s : State) (a : awake s = true)
    (h : kindOf bytes = .none) : summaryPoll c bytes s =
      endTransaction c ((fixed s c).summary :: List.replicate (bytes.length - 1) 0) s := by
  unfold summaryPoll
  simp [a, h]

end Sys2Proof.Machine
end

