-- ==== Sys2Proof/Laws/Frames.lean ====
section
/-! SUPPORT. What each shared operation over several blocks can change: one lemma per operation, naming the
fields that may differ afterwards. Every other field is as before, by the record update. -/

namespace Sys2Proof.Machine

/-- A relation that holds of every step of a fold holds of the fold. -/
theorem foldl_relates {α : Type} (R : State → State → Prop) (refl : ∀ s, R s s)
    (trans : ∀ s t u, R s t → R t u → R s u) (f : State → α → State) (h : ∀ s a, R s (f s a)) :
    ∀ (l : List α) (s : State), R s (l.foldl f s)
  | [], s => refl s
  | a :: l, s => trans _ _ _ (h s a) (foldl_relates R refl trans f h l (f s a))

/-- A relation that holds of an effect where a condition holds, and of doing nothing, holds of the
choice. -/
theorem ite_relates (R : State → State → Prop) (c : Prop) [Decidable c] (s t u : State)
    (ht : R s t) (hu : R s u) : R s (if c then t else u) := by
  split
  · exact ht
  · exact hu

/-! ## The sample path -/

/-- Only entries, flags and control ports may differ: the move of a read index with its slip. -/
def MovesEntries (s t : State) : Prop :=
  ∃ e v p, t = { s with entries := e, flags := v, ports := p }

theorem MovesEntries.refl (s : State) : MovesEntries s s := ⟨s.entries, s.flags, s.ports, rfl⟩

theorem MovesEntries.trans (s t u : State) (h : MovesEntries s t) (k : MovesEntries t u) :
    MovesEntries s u := by
  obtain ⟨e, v, p, rfl⟩ := h
  obtain ⟨e', v', p', rfl⟩ := k
  exact ⟨e', v', p', rfl⟩

/-- R68, R70, R71. -/
theorem moveEntry_frame (n : Option Nat) (d : DestId) (s : State) :
    MovesEntries s (moveEntry n d s) := by
  unfold moveEntry
  dsimp only
  split
  · obtain ⟨v, p, h⟩ := setFlag_frame (.slip (timingLane s d)) (modEntry d (movedEntry s n) s)
    exact ⟨_, v, p, h⟩
  · exact ⟨_, s.flags, s.ports, rfl⟩

/-- R70. -/
theorem silentAdvance_frame (n : Nat) (d : DestId) (s : State) :
    MovesEntries s (silentAdvance n d s) := by
  unfold silentAdvance
  exact ite_relates _ _ _ _ _ (MovesEntries.refl s) (moveEntry_frame _ d s)

/-- R68, R73. -/
theorem readDests_frame (ds : List DestId) (s : State) : MovesEntries s (readDests ds s).2 := by
  induction ds generalizing s with
  | nil => exact MovesEntries.refl s
  | cons d ds ih => exact MovesEntries.trans _ _ _ (moveEntry_frame none d s) (ih _)

/-- A move leaves every other entry (R68). -/
theorem moveEntry_other (n : Option Nat) {d k : DestId} (s : State) (h : k ≠ d) :
    (moveEntry n d s).entries.look k = s.entries.look k := by
  have h' : d ≠ k := fun e => h e.symm
  unfold moveEntry
  dsimp only
  split
  · obtain ⟨v, p, e⟩ := setFlag_frame (.slip (timingLane s d)) (modEntry d (movedEntry s n) s)
    rw [e]
    simp [modEntry, h']
  · simp [modEntry, h']

/-- The entry after a move (R68, R70). -/
theorem moveEntry_self (n : Option Nat) (d : DestId) (s : State) :
    (moveEntry n d s).entries.look d = movedEntry s n (s.entries.look d) := by
  unfold moveEntry
  dsimp only
  split
  · obtain ⟨v, p, e⟩ := setFlag_frame (.slip (timingLane s d)) (modEntry d (movedEntry s n) s)
    rw [e]
    simp
  · simp

/-! ## Rings -/

/-- Only the Sample Store and the write indices may differ. -/
def WritesRings (s t : State) : Prop := ∃ m w, t = { s with mem := m, writeIndex := w }

theorem WritesRings.refl (s : State) : WritesRings s s := ⟨s.mem, s.writeIndex, rfl⟩

theorem WritesRings.trans (s t u : State) (h : WritesRings s t) (k : WritesRings t u) :
    WritesRings s u := by
  obtain ⟨m, w, rfl⟩ := h
  obtain ⟨m', w', rfl⟩ := k
  exact ⟨m', w', rfl⟩

/-- R63. -/
theorem writeSlots_frame (p : SapId) (xs : Table Sample 16) (s : State) :
    WritesRings s (writeSlots p xs s) :=
  foldl_relates _ WritesRings.refl WritesRings.trans _ (fun s _ => writeSample_frame _ _ s) _ s

/-- R31. -/
theorem settleTracks_frame (l : LaneId) (ks : List TrackId) (s : State) :
    WritesRings s (ks.foldl (fun s t => settleTrack l t s) s) :=
  foldl_relates _ WritesRings.refl WritesRings.trans _ (fun s _ => padSource_frame _ _ s) _ s

/-! ## Audio ports -/

/-- Only what the two pieces of work of a port may change (R63, R64). -/
def WorksPort (s t : State) : Prop :=
  ∃ m w a e v p, t = { s with
    mem := m, writeIndex := w, saps := a, entries := e, flags := v, ports := p }

theorem WorksPort.trans (s t u : State) (h : WorksPort s t) (k : WorksPort t u) : WorksPort s u := by
  obtain ⟨m, w, a, e, v, q, rfl⟩ := h
  obtain ⟨m', w', a', e', v', q', rfl⟩ := k
  exact ⟨m', w', a', e', v', q', rfl⟩

theorem modSap_works (p : SapId) (f : Sap → Sap) (s : State) : WorksPort s (modSap p f s) :=
  ⟨s.mem, s.writeIndex, _, s.entries, s.flags, s.ports, rfl⟩

/-- R63, R64. -/
theorem readSlots_frame (p : SapId) (s : State) : WorksPort s (readSlots p s) := by
  obtain ⟨e, v, q, h⟩ := readDests_frame (portDests p) s
  have h1 : WorksPort s (readDests (portDests p) s).2 :=
    ⟨s.mem, s.writeIndex, s.saps, e, v, q, h⟩
  unfold readSlots
  exact WorksPort.trans _ _ _ h1 (modSap_works p _ (readDests (portDests p) s).2)

/-- R63. -/
theorem writeSlots_works (p : SapId) (xs : Table Sample 16) (s : State) :
    WorksPort s (writeSlots p xs s) := by
  obtain ⟨m, w, h⟩ := writeSlots_frame p xs s
  exact ⟨m, w, s.saps, s.entries, s.flags, s.ports, h⟩

/-- R63, R64. -/
theorem portWork_frame (p : SapId) (xs : Option (Table Sample 16)) (readFirst : Bool) (s : State) :
    WorksPort s (portWork p xs readFirst s) := by
  cases xs with
  | none =>
    cases readFirst
    · exact readSlots_frame p s
    · exact readSlots_frame p s
  | some xs =>
    cases readFirst
    · exact WorksPort.trans _ _ _ (writeSlots_works p xs s) (readSlots_frame p _)
    · exact WorksPort.trans _ _ _ (readSlots_frame p s) (writeSlots_works p xs _)

/-! ## Take queues -/

/-- Only take state, tag counts and control ports may differ: changes end and ports are told. -/
def EndsChanges (s t : State) : Prop :=
  ∃ k g p, t = { s with takes := k, tags := g, ports := p }

theorem EndsChanges.refl (s : State) : EndsChanges s s := ⟨s.takes, s.tags, s.ports, rfl⟩

theorem EndsChanges.trans (s t u : State) (h : EndsChanges s t) (k : EndsChanges t u) :
    EndsChanges s u := by
  obtain ⟨a, b, c, rfl⟩ := h
  obtain ⟨a', b', c', rfl⟩ := k
  exact ⟨a', b', c', rfl⟩

/-- R151. -/
theorem setNotices_frame (cs : List CpId) (n : Notice) (s : State) :
    ∃ p, setNotices cs n s = { s with ports := p } :=
  foldl_relates (fun s t => ∃ p, t = { s with ports := p }) (fun s => ⟨s.ports, rfl⟩)
    (fun s t u h k => by obtain ⟨p, rfl⟩ := h; obtain ⟨q, rfl⟩ := k; exact ⟨q, rfl⟩)
    (fun s c => setNotice c n s) (fun s c => setNotice_frame c n s) cs s

/-- R128. -/
theorem withdraw_frame (c : CpId) (d : DestId) (s : State) : EndsChanges s (withdraw c d s) := by
  have h : ∀ gone, EndsChanges s (setNotice c .withdrawn
      (endChanges gone (modTake (timingLane s d) (TakeUnit.withdrawn c d) s))) := by
    intro gone
    obtain ⟨g, h⟩ := endChanges_frame gone (modTake (timingLane s d) (TakeUnit.withdrawn c d) s)
    rw [h]
    exact ⟨_, _, _, rfl⟩
  unfold withdraw
  dsimp only
  split
  · exact EndsChanges.refl s
  · exact h _

/-- R101. -/
theorem withdrawItem_frame (c : CpId) (i : ItemId) (s : State) :
    EndsChanges s (withdrawItem c i s) := by
  unfold withdrawItem
  split
  · exact withdraw_frame c _ s
  · exact EndsChanges.refl s

/-- R129. -/
theorem flush_frame (l : LaneId) (s : State) : EndsChanges s (flush l s) := by
  unfold flush
  dsimp only
  obtain ⟨g, h⟩ := endChanges_frame (s.takes.look l).allChanges (modTake l TakeUnit.flushed s)
  obtain ⟨p, k⟩ := setNotices_frame ((List.finRange 3).filter (s.takes.look l).owns) .cancelled
    (endChanges (s.takes.look l).allChanges (modTake l TakeUnit.flushed s))
  rw [k, h]
  exact ⟨_, _, _, rfl⟩

/-- R151: notices touch neither the tag records nor the take queues. -/
theorem setNotices_tags (cs : List CpId) (n : Notice) (s : State) :
    (setNotices cs n s).tags = s.tags ∧ (setNotices cs n s).takes = s.takes := by
  obtain ⟨p, h⟩ := setNotices_frame cs n s
  rw [h]
  exact ⟨rfl, rfl⟩

/-- R129: what FLUSH leaves of the lane's take state and of the tag counts. -/
theorem flush_takes (l : LaneId) (s : State) :
    (flush l s).takes.look l = (s.takes.look l).flushed ∧
    (flush l s).tags = (endChanges (s.takes.look l).allChanges s).tags := by
  obtain ⟨g, h⟩ := endChanges_frame (s.takes.look l).allChanges (modTake l TakeUnit.flushed s)
  unfold flush
  dsimp only
  rw [(setNotices_tags _ _ _).1, (setNotices_tags _ _ _).2]
  refine ⟨?_, endChanges_tags _ rfl⟩
  rw [h]
  simp [modTake]

/-- R84. -/
theorem moveCount_frame (old new : TagRef) (s : State) :
    ∃ g, moveCount old new s = { s with tags := g } := by
  unfold moveCount
  split
  · exact ⟨s.tags, rfl⟩
  · obtain ⟨g, h⟩ := countDown_frame old s
    obtain ⟨g', h'⟩ := countUp_frame new (countDown old s)
    exact ⟨g', by rw [h', h]⟩

/-- R82 to R86: the application of a change. -/
theorem applyChange_frame (c : Change) (s : State) :
    ∃ e g, applyChange c s = { s with entries := e, tags := g } := by
  unfold applyChange
  dsimp only
  obtain ⟨g, h⟩ := moveCount_frame (s.entries.look c.dest).counted
    (newTagRef s (s.entries.look c.dest) c).2 (modEntry c.dest (appliedEntry s c) s)
  exact ⟨_, g, h⟩

/-- R122: the changes of a batch. -/
theorem applyChanges_frame (cs : List Change) (s : State) :
    ∃ e g, applyChanges cs s = { s with entries := e, tags := g } :=
  foldl_relates (fun s t => ∃ e g, t = { s with entries := e, tags := g })
    (fun s => ⟨s.entries, s.tags, rfl⟩)
    (fun s t u h k => by obtain ⟨e, g, rfl⟩ := h; obtain ⟨e', g', rfl⟩ := k; exact ⟨e', g', rfl⟩)
    _ (fun s c => by
      obtain ⟨e, g, h⟩ := applyChange_frame c s
      obtain ⟨g', h'⟩ := countDown_frame (c.tag.getD .none) (applyChange c s)
      exact ⟨e, g', by rw [endChange, h', h]⟩) cs s

/-- R122: the application of a head batch. -/
theorem applyHead_frame (l : LaneId) (s : State) :
    ∃ e k g p, applyHead l s = { s with entries := e, takes := k, tags := g, ports := p } := by
  unfold applyHead
  split
  · exact ⟨s.entries, s.takes, s.tags, s.ports, rfl⟩
  · rename_i b _ _
    obtain ⟨e, g, h⟩ := applyChanges_frame b.changes s
    rw [h]
    exact ⟨_, _, _, _, rfl⟩

/-- R120. -/
theorem takeTimerWork_frame (l : LaneId) (s : State) :
    ∃ e k g p, takeTimerWork l s = { s with entries := e, takes := k, tags := g, ports := p } := by
  unfold takeTimerWork
  dsimp only
  split
  · exact ⟨s.entries, _, s.tags, s.ports, rfl⟩
  · split
    · exact ⟨s.entries, s.takes, s.tags, s.ports, rfl⟩
    · split
      · exact ⟨s.entries, s.takes, s.tags, s.ports, rfl⟩
      · exact applyHead_frame l s
      · exact ⟨s.entries, _, s.tags, s.ports, rfl⟩

/-! ## Claims and liveness -/

/-- R99: an item is given up. -/
theorem freeItem_frame (c : CpId) (i : ItemId) (s : State) :
    ∃ h k g p, freeItem c i s = { s with holders := h, takes := k, tags := g, ports := p } := by
  obtain ⟨k, g, p, e⟩ := withdrawItem_frame c i (setHolder i none s)
  exact ⟨_, k, g, p, e⟩

/-- Only claims, take state, tags and control ports may differ. -/
def GivesUp (s t : State) : Prop :=
  ∃ h k g p, t = { s with holders := h, takes := k, tags := g, ports := p }

theorem GivesUp.refl (s : State) : GivesUp s s := ⟨s.holders, s.takes, s.tags, s.ports, rfl⟩

theorem GivesUp.trans (s t u : State) (h : GivesUp s t) (k : GivesUp t u) : GivesUp s u := by
  obtain ⟨a, b, c, d, rfl⟩ := h
  obtain ⟨a', b', c', d', rfl⟩ := k
  exact ⟨a', b', c', d', rfl⟩

/-- R99, R107. -/
theorem freeItems_frame (c : CpId) (items : List ItemId) (s : State) :
    GivesUp s (freeItems c items s) :=
  foldl_relates _ GivesUp.refl GivesUp.trans _ (fun s i => freeItem_frame c i s) _ s

/-- R100. -/
theorem seizeItem_frame (c : CpId) (i : ItemId) (s : State) : GivesUp s (seizeItem c i s) := by
  unfold seizeItem
  split
  · exact ⟨_, s.takes, s.tags, s.ports, rfl⟩
  · rename_i h _
    split
    · exact GivesUp.refl s
    · obtain ⟨k, g, p, e⟩ := withdrawItem_frame h i
        (setNotice h .claimLost (setHolder i (some c) s))
      exact ⟨_, k, g, p, e⟩

/-- Only claims, take state, tags, control ports and flags may differ: what lateness and loss do. -/
def LosesPort (s t : State) : Prop :=
  ∃ h k g p v, t = { s with holders := h, takes := k, tags := g, ports := p, flags := v }

theorem LosesPort.refl (s : State) : LosesPort s s :=
  ⟨s.holders, s.takes, s.tags, s.ports, s.flags, rfl⟩

theorem LosesPort.trans (s t u : State) (h : LosesPort s t) (k : LosesPort t u) : LosesPort s u := by
  obtain ⟨a, b, c, d, e, rfl⟩ := h
  obtain ⟨a', b', c', d', e', rfl⟩ := k
  exact ⟨a', b', c', d', e', rfl⟩

/-- R106. -/
theorem portLate_frame (c : CpId) (s : State) :
    ∃ p v, portLate c s = { s with ports := p, flags := v } := by
  unfold portLate
  split
  · obtain ⟨v, p, h⟩ := setFlag_frame (.portLate c)
      (modPort c (fun p => { p with liveness := .late }) s)
    exact ⟨p, v, h⟩
  · exact ⟨s.ports, s.flags, rfl⟩

theorem setNotice_loses (c : CpId) (n : Notice) (s : State) : LosesPort s (setNotice c n s) :=
  ⟨s.holders, s.takes, s.tags, _, s.flags, rfl⟩

theorem setFlag_loses (f : FaultFlag) (s : State) : LosesPort s (setFlag f s) := by
  obtain ⟨v, p, h⟩ := setFlag_frame f s
  exact ⟨s.holders, s.takes, s.tags, p, v, h⟩

theorem freeItems_loses (c : CpId) (items : List ItemId) (s : State) :
    LosesPort s (freeItems c items s) := by
  obtain ⟨h, k, g, p, e⟩ := freeItems_frame c items s
  exact ⟨h, k, g, p, s.flags, e⟩

/-- R107. -/
theorem becomeLost_frame (c : CpId) (s : State) : LosesPort s (becomeLost c s) := by
  have h0 : LosesPort s (modPort c (fun p => { p with liveness := .lost }) s) :=
    ⟨s.holders, s.takes, s.tags, _, s.flags, rfl⟩
  have h1 := LosesPort.trans _ _ _ h0 (freeItems_loses c (List.finRange 264) _)
  have h2 : ∀ t, LosesPort t (dropAuthor c t) := fun t =>
    ⟨t.holders, t.takes, _, t.ports, t.flags, rfl⟩
  exact LosesPort.trans _ _ _
    (LosesPort.trans _ _ _
      (ite_relates _ _ _ _ _ h1 (LosesPort.trans _ _ _ h1 (setNotice_loses c _ _))) (h2 _))
    (setFlag_loses _ _)

/-- R107. -/
theorem portLost_frame (c : CpId) (s : State) : LosesPort s (portLost c s) := by
  unfold portLost
  exact ite_relates _ _ _ _ _ (becomeLost_frame c s) (LosesPort.refl s)

/-- R109. -/
theorem judgeLiveness_frame (c : CpId) (s : State) : LosesPort s (judgeLiveness c s) := by
  obtain ⟨p, v, h⟩ := portLate_frame c s
  exact LosesPort.trans _ _ _ ⟨s.holders, s.takes, s.tags, p, v, h⟩ (portLost_frame c _)

/-! ## Fault flags -/

/-- Only flags, control ports and the first-suspect record may differ. -/
def ClearsFlags (s t : State) : Prop :=
  ∃ v p f, t = { s with flags := v, ports := p, firstSuspect := f }

theorem ClearsFlags.refl (s : State) : ClearsFlags s s := ⟨s.flags, s.ports, s.firstSuspect, rfl⟩

theorem ClearsFlags.trans (s t u : State) (h : ClearsFlags s t) (k : ClearsFlags t u) :
    ClearsFlags s u := by
  obtain ⟨a, b, c, rfl⟩ := h
  obtain ⟨a', b', c', rfl⟩ := k
  exact ⟨a', b', c', rfl⟩

theorem setFlags_frame (fs : List FaultFlag) (s : State) :
    ClearsFlags s (fs.foldl (fun s f => setFlag f s) s) :=
  foldl_relates _ ClearsFlags.refl ClearsFlags.trans _ (fun s f => by
    obtain ⟨v, p, h⟩ := setFlag_frame f s
    exact ⟨v, p, s.firstSuspect, h⟩) fs s

/-- R159. -/
theorem clearFlags_frame (selection : BitVec 56) (s : State) :
    ClearsFlags s (clearFlags selection s) := by
  unfold clearFlags
  dsimp only
  exact ClearsFlags.trans _ _ _ ⟨_, s.ports, _, rfl⟩ (setFlags_frame _ _)

/-! ## Lane state changes -/

/-- Only what a change of lane state may touch. -/
def ChangesLane (s t : State) : Prop :=
  ∃ l r w k g p v, t = { s with
    lanes := l, readers := r, writers := w, takes := k, tags := g, ports := p, flags := v }

theorem ChangesLane.refl (s : State) : ChangesLane s s :=
  ⟨s.lanes, s.readers, s.writers, s.takes, s.tags, s.ports, s.flags, rfl⟩

theorem ChangesLane.trans (s t u : State) (h : ChangesLane s t) (k : ChangesLane t u) :
    ChangesLane s u := by
  obtain ⟨a, b, c, d, e, f, g, rfl⟩ := h
  obtain ⟨a', b', c', d', e', f', g', rfl⟩ := k
  exact ⟨a', b', c', d', e', f', g', rfl⟩

theorem modLane_changes (l : LaneId) (f : Lane → Lane) (s : State) : ChangesLane s (modLane l f s) :=
  ⟨_, s.readers, s.writers, s.takes, s.tags, s.ports, s.flags, rfl⟩

theorem modTake_changes (l : LaneId) (f : TakeUnit → TakeUnit) (s : State) :
    ChangesLane s (modTake l f s) :=
  ⟨s.lanes, s.readers, s.writers, _, s.tags, s.ports, s.flags, rfl⟩

theorem setFlag_changes (f : FaultFlag) (s : State) : ChangesLane s (setFlag f s) := by
  obtain ⟨v, p, h⟩ := setFlag_frame f s
  exact ⟨s.lanes, s.readers, s.writers, s.takes, s.tags, p, v, h⟩

theorem laneNotice_changes (l : LaneId) (s : State) : ChangesLane s (laneNotice l s) := by
  obtain ⟨p, h⟩ := laneNotice_frame l s
  exact ⟨s.lanes, s.readers, s.writers, s.takes, s.tags, p, s.flags, h⟩

theorem flush_changes (l : LaneId) (s : State) : ChangesLane s (flush l s) := by
  obtain ⟨k, g, p, h⟩ := flush_frame l s
  exact ⟨s.lanes, s.readers, s.writers, k, g, p, s.flags, h⟩

/-- R12. -/
theorem departRun_changes (l : LaneId) (s : State) : ChangesLane s (departRun l s) :=
  ⟨s.lanes, _, _, s.takes, s.tags, s.ports, s.flags, rfl⟩

/-- R14. -/
theorem enterParked_changes (l : LaneId) (cause : ParkCause) (s : State) :
    ChangesLane s (enterParked l cause s) := by
  unfold enterParked
  dsimp only
  refine ChangesLane.trans _ _ _ ?_ (laneNotice_changes l _)
  have h1 : ChangesLane s (modTake l (fun t => { t with holdPark := true })
      (modLane l (fun n => { n with
        state := .parked, parkCause := some cause, relockSeen := false, resumeArmed := false,
        coastCount := 0 }) s)) :=
    ChangesLane.trans _ _ _ (modLane_changes l _ s) (modTake_changes l _ _)
  exact ite_relates _ _ _ _ _ (ChangesLane.trans _ _ _ h1 (flush_changes l _)) h1

/-- R19: the LANE notice touches neither the take queues nor the tag records. -/
theorem laneNotice_takes (l : LaneId) (s : State) :
    (laneNotice l s).takes = s.takes ∧ (laneNotice l s).tags = s.tags := by
  obtain ⟨p, h⟩ := laneNotice_frame l s
  rw [h]
  exact ⟨rfl, rfl⟩

/-- R14, R129: what an entry to PARKED leaves of the lane's take state and of the tag counts. -/
theorem enterParked_takes (l : LaneId) (cause : ParkCause) (s : State) :
    ((s.lanes.look l).parkMode ≠ .flush →
      (enterParked l cause s).takes.look l = { s.takes.look l with holdPark := true } ∧
      (enterParked l cause s).tags = s.tags) ∧
    ((s.lanes.look l).parkMode = .flush →
      (enterParked l cause s).takes.look l =
        TakeUnit.flushed { s.takes.look l with holdPark := true } ∧
      (enterParked l cause s).tags = (endChanges (s.takes.look l).allChanges s).tags) := by
  unfold enterParked
  dsimp only
  rw [(laneNotice_takes _ _).1, (laneNotice_takes _ _).2]
  constructor
  · intro h
    rw [if_neg h]
    simp [modTake, modLane]
  · intro h
    rw [if_pos h, (flush_takes _ _).1, (flush_takes _ _).2]
    have key : ∀ u : State, (u.takes.look l).allChanges = (s.takes.look l).allChanges →
        u.tags = s.tags →
        (endChanges (u.takes.look l).allChanges u).tags =
          (endChanges (s.takes.look l).allChanges s).tags := by
      intro u a b
      rw [a]
      exact endChanges_tags _ b
    exact ⟨by simp [modTake, modLane], key _ (by simp [modTake, modLane, TakeUnit.allChanges]) rfl⟩

/-- R16. -/
theorem leaveParked_changes (l : LaneId) (s : State) : ChangesLane s (leaveParked l s) :=
  ChangesLane.trans _ _ _ (modLane_changes l _ s) (modTake_changes l _ _)

/-- R10, R13, R15. -/
theorem enterRun_changes (l : LaneId) (c : FormatClass) (s : State) :
    ChangesLane s (enterRun l c s) := by
  unfold enterRun
  dsimp only
  refine ChangesLane.trans _ _ _ ?_ (laneNotice_changes l _)
  exact ChangesLane.trans _ _ _
    (ite_relates _ _ _ _ _ (leaveParked_changes l s) (ChangesLane.refl s)) (modLane_changes l _ _)

/-- R11. -/
theorem loseLock_changes (l : LaneId) (s : State) : ChangesLane s (loseLock l s) := by
  unfold loseLock
  dsimp only
  have h : ChangesLane s (setFlag (.lockLost l) (departRun l s)) :=
    ChangesLane.trans _ _ _ (departRun_changes l s) (setFlag_changes _ _)
  exact ite_relates _ _ _ _ _ (ChangesLane.trans _ _ _ h (enterParked_changes l _ _))
    (ChangesLane.trans _ _ _ h
      (ChangesLane.trans _ _ _ (modLane_changes l _ _) (laneNotice_changes l _)))

/-- R10, R13. -/
theorem formatChange_changes (l : LaneId) (s : State) : ChangesLane s (formatChange l s) :=
  ChangesLane.trans _ _ _ (setFlag_changes _ s) (enterParked_changes l _ _)

/-- R8, R13, R15. -/
theorem laneWork_changes (l : LaneId) (s : State) : ChangesLane s (laneWork l s) := by
  unfold laneWork
  split
  · unfold coastWork
    dsimp only
    exact ite_relates _ _ _ _ _ (enterParked_changes l _ s) (modLane_changes l _ s)
  · unfold parkedWork
    dsimp only
    split
    · exact ite_relates _ _ _ _ _ (enterRun_changes l _ s) (modLane_changes l _ s)
    · exact modLane_changes l _ s
  · exact ChangesLane.refl s

/-! ## Frame starts -/

/-- Only what a frame's work may touch: the rings, the entries, the reader, the writer, flags and ports. -/
def WorksFrame (s t : State) : Prop :=
  ∃ r w m i e v p, t = { s with
    readers := r, writers := w, mem := m, writeIndex := i, entries := e, flags := v, ports := p }

theorem WorksFrame.refl (s : State) : WorksFrame s s :=
  ⟨s.readers, s.writers, s.mem, s.writeIndex, s.entries, s.flags, s.ports, rfl⟩

theorem WorksFrame.trans (s t u : State) (h : WorksFrame s t) (k : WorksFrame t u) :
    WorksFrame s u := by
  obtain ⟨a, b, c, d, e, f, g, rfl⟩ := h
  obtain ⟨a', b', c', d', e', f', g', rfl⟩ := k
  exact ⟨a', b', c', d', e', f', g', rfl⟩

theorem WorksFrame.ofRings (s t : State) (h : WritesRings s t) : WorksFrame s t := by
  obtain ⟨m, w, rfl⟩ := h
  exact ⟨s.readers, s.writers, m, w, s.entries, s.flags, s.ports, rfl⟩

theorem WorksFrame.ofMoves (s t : State) (h : MovesEntries s t) : WorksFrame s t := by
  obtain ⟨e, v, p, rfl⟩ := h
  exact ⟨s.readers, s.writers, s.mem, s.writeIndex, e, v, p, rfl⟩

theorem modReader_works (l : LaneId) (f : Reader → Reader) (s : State) :
    WorksFrame s (modReader l f s) :=
  ⟨_, s.writers, s.mem, s.writeIndex, s.entries, s.flags, s.ports, rfl⟩

theorem modWriter_works (l : LaneId) (f : Writer → Writer) (s : State) :
    WorksFrame s (modWriter l f s) :=
  ⟨s.readers, _, s.mem, s.writeIndex, s.entries, s.flags, s.ports, rfl⟩

theorem setFlag_works (f : FaultFlag) (s : State) : WorksFrame s (setFlag f s) := by
  obtain ⟨v, p, h⟩ := setFlag_frame f s
  exact ⟨s.readers, s.writers, s.mem, s.writeIndex, s.entries, v, p, h⟩

/-- R31. -/
theorem settleFrame_works (l : LaneId) (s : State) : WorksFrame s (settleFrame l s) := by
  unfold settleFrame
  dsimp only
  have h := WorksFrame.ofRings _ _ (settleTracks_frame l (List.finRange 24) s)
  refine WorksFrame.trans _ _ _ ?_ (modReader_works l _ _)
  exact ite_relates _ _ _ _ _ (WorksFrame.trans _ _ _ h (setFlag_works _ _)) h

/-- R50. -/
theorem completeFrame_works (l : LaneId) (s : State) : WorksFrame s (completeFrame l s) := by
  unfold completeFrame
  refine WorksFrame.trans _ _ _ ?_ (modWriter_works l _ _)
  exact foldl_relates _ WorksFrame.refl WorksFrame.trans _
    (fun s t => WorksFrame.ofMoves _ _ (silentAdvance_frame _ _ s)) _ s

/-- R31, R50. -/
theorem closeFrame_works (l : LaneId) (s : State) : WorksFrame s (closeFrame l s) :=
  WorksFrame.trans _ _ _ (settleFrame_works l s) (completeFrame_works l _)

/-- R47. -/
theorem closeCrowding_works (l : LaneId) (s : State) : WorksFrame s (closeCrowding l s) := by
  unfold closeCrowding
  exact ite_relates _ _ _ _ _ (modWriter_works l _ s) (WorksFrame.refl s)

/-- R31, R33, R47, R50, R52. -/
theorem frameWork_works (l : LaneId) (s : State) : WorksFrame s (frameWork l s) := by
  have h : WorksFrame s (evaluateFrame l (closeFrame l s)) :=
    WorksFrame.trans _ _ _ (closeFrame_works l s) (modReader_works l _ _)
  have k : ∀ v u, WorksFrame u (latchTags v l u) := fun _ u => modWriter_works l _ u
  unfold frameWork
  exact WorksFrame.trans _ _ _ (WorksFrame.trans _ _ _ h (k _ _)) (closeCrowding_works l _)

/-- R8: the work of the reader, the writer and the Patch Engine touches no take queue and no count. -/
theorem frameWork_takes (l : LaneId) (s : State) :
    (frameWork l s).takes = s.takes ∧ (frameWork l s).tags = s.tags := by
  obtain ⟨r, w, m, i, e, v, p, h⟩ := frameWork_works l s
  rw [h]
  exact ⟨rfl, rfl⟩

/-- Only what a frame start, whole, may touch (R8). -/
def StartsFrame (s t : State) : Prop :=
  ∃ n r w m i e k g p v, t = { s with
    lanes := n, readers := r, writers := w, mem := m, writeIndex := i, entries := e, takes := k,
    tags := g, ports := p, flags := v }

theorem StartsFrame.trans (s t u : State) (h : StartsFrame s t) (k : StartsFrame t u) :
    StartsFrame s u := by
  obtain ⟨a, b, c, d, e, f, g, h, i, j, rfl⟩ := h
  obtain ⟨a', b', c', d', e', f', g', h', i', j', rfl⟩ := k
  exact ⟨a', b', c', d', e', f', g', h', i', j', rfl⟩

theorem StartsFrame.ofWork (s t : State) (h : WorksFrame s t) : StartsFrame s t := by
  obtain ⟨r, w, m, i, e, v, p, rfl⟩ := h
  exact ⟨s.lanes, r, w, m, i, e, s.takes, s.tags, p, v, rfl⟩

theorem StartsFrame.ofLane (s t : State) (h : ChangesLane s t) : StartsFrame s t := by
  obtain ⟨l, r, w, k, g, p, v, rfl⟩ := h
  exact ⟨l, r, w, s.mem, s.writeIndex, s.entries, k, g, p, v, rfl⟩

/-- R8. -/
theorem frameStart_frame (l : LaneId) (s : State) : StartsFrame s (frameStart l s) := by
  have h1 := StartsFrame.ofWork _ _ (frameWork_works l s)
  have h2 := laneWork_changes l (frameWork l s)
  have h3 := modLane_changes l (fun n => n.opened s.now) (laneWork l (frameWork l s))
  have h4 := modTake_changes l TakeUnit.frameOpened
    (modLane l (fun n => n.opened s.now) (laneWork l (frameWork l s)))
  exact StartsFrame.trans _ _ _ h1
    (StartsFrame.ofLane _ _ (ChangesLane.trans _ _ _ (ChangesLane.trans _ _ _ h2 h3) h4))

/-- R121: a head that waited past the frame before is applied at the first switch point of the frame that
opens. -/
theorem frameStart_fresh (l : LaneId) (s : State) :
    ((frameStart l s).takes.look l).freshHead = false := by
  simp [frameStart, modTake, TakeUnit.frameOpened]

/-! ## Sound cells -/

/-- Only the reader and the rings may differ: the taking of a cell (R29, R36). -/
def TakesCell (s t : State) : Prop :=
  ∃ r m i, t = { s with readers := r, mem := m, writeIndex := i }

theorem TakesCell.refl (s : State) : TakesCell s s := ⟨s.readers, s.mem, s.writeIndex, rfl⟩

theorem TakesCell.trans (s t u : State) (h : TakesCell s t) (k : TakesCell t u) : TakesCell s u := by
  obtain ⟨r, m, i, rfl⟩ := h
  obtain ⟨r', m', i', rfl⟩ := k
  exact ⟨r', m', i', rfl⟩

theorem modReader_takesCell (l : LaneId) (f : Reader → Reader) (s : State) :
    TakesCell s (modReader l f s) := ⟨_, s.mem, s.writeIndex, rfl⟩

theorem writeSample_takesCell (r : RingId) (x : Sample) (s : State) :
    TakesCell s (writeSample r x s) := ⟨s.readers, _, _, rfl⟩

/-- R29. -/
theorem takeSet_frame (l : LaneId) (g : GroupId) (x : SampleSet) (s : State) :
    TakesCell s (takeSet l g x s) := by
  unfold takeSet
  exact ite_relates _ _ _ _ _ (modReader_takesCell l _ s)
    (TakesCell.trans _ _ _
      (TakesCell.trans _ _ _
        (TakesCell.trans _ _ _ (writeSample_takesCell _ _ s) (writeSample_takesCell _ _ _))
        (writeSample_takesCell _ _ _))
      (modReader_takesCell l _ _))

/-- R29, R36, R39. -/
theorem takeCell_frame (l : LaneId) (c : CellContent) (s : State) :
    TakesCell s (takeCell l c s) := by
  have h : TakesCell s (c.sets.foldl (fun s x => takeSet l c.group x s) s) :=
    foldl_relates _ TakesCell.refl TakesCell.trans _ (fun s x => takeSet_frame l c.group x s) c.sets s
  unfold takeCell
  refine TakesCell.trans _ _ _ h ?_
  exact modReader_takesCell l _ _

/-- Only the writer, the entries, flags and ports may differ: the emission of cells (R48, R49). -/
def Emits (s t : State) : Prop :=
  ∃ w e v p, t = { s with writers := w, entries := e, flags := v, ports := p }

theorem Emits.refl (s : State) : Emits s s := ⟨s.writers, s.entries, s.flags, s.ports, rfl⟩

theorem Emits.trans (s t u : State) (h : Emits s t) (k : Emits t u) : Emits s u := by
  obtain ⟨a, b, c, d, rfl⟩ := h
  obtain ⟨a', b', c', d', rfl⟩ := k
  exact ⟨a', b', c', d', rfl⟩

/-- R49. -/
theorem emitSet_emits (l : LaneId) (g : GroupId) (s : State) : Emits s (emitSet l g s).2 := by
  unfold emitSet
  split
  · exact Emits.refl s
  · obtain ⟨e, v, p, h⟩ := readDests_frame (groupDests l g) s
    dsimp only
    rw [h]
    exact ⟨_, e, v, p, rfl⟩

/-- R49. -/
theorem emitSets_emits (l : LaneId) (g : GroupId) (n : Nat) (s : State) :
    Emits s (emitSets l g n s).2 := by
  induction n generalizing s with
  | zero => exact Emits.refl s
  | succ n ih => exact Emits.trans _ _ _ (emitSet_emits l g s) (ih _)

/-- R48, R51. -/
theorem emitCell_emits (l : LaneId) (c : FormatClass) (i : Nat) (g : GroupId) (s : State) :
    Emits s (emitCell l c i g s).2 := by
  obtain ⟨w, e, v, p, h⟩ := emitSets_emits l g (cellSets c i) s
  unfold emitCell
  dsimp only
  rw [h]
  exact ⟨_, e, v, p, rfl⟩

/-- R45. -/
theorem emitCells_emits (l : LaneId) (c : FormatClass) (i : Nat) (gs : List GroupId) (s : State) :
    Emits s (emitCells l c i gs s).2 := by
  induction gs generalizing s with
  | nil => exact Emits.refl s
  | cons g gs ih => exact Emits.trans _ _ _ (emitCell_emits l c i g s) (ih _)

/-- R47. -/
theorem crowd_emits (l : LaneId) (s : State) : Emits s (crowd l s) := by
  unfold crowd
  dsimp only
  split
  · obtain ⟨v, p, h⟩ := setFlag_frame (.crowded l)
      (modWriter l (fun w => { w with crowding := .thisFrame }) s)
    rw [h]
    exact ⟨_, s.entries, v, p, rfl⟩
  · exact ⟨_, s.entries, s.flags, s.ports, rfl⟩

/-- The output of a line (R44, R45): beside what an emission moves only the lane may differ. -/
theorem putLine_frame (l : LaneId) (line : FeedLine) (s : State) :
    ∃ n w e v p, putLine l line s =
      { s with lanes := n, writers := w, entries := e, flags := v, ports := p } := by
  have carried : ∃ n w e v p, carryLine l line s =
      { s with lanes := n, writers := w, entries := e, flags := v, ports := p } :=
    ⟨_, s.writers, s.entries, s.flags, s.ports, rfl⟩
  unfold putLine
  split
  · rename_i c _
    split
    · unfold buildLine
      dsimp only
      have h := emitCells_emits l c (s.writers.look l).linePos
        (planLine c (s.lanes.look l).plan (s.readers.look l).handed).emitted s
      generalize emitCells l c (s.writers.look l).linePos
        (planLine c (s.lanes.look l).plan (s.readers.look l).handed).emitted s = x at h ⊢
      have k : Emits s (if (planLine c (s.lanes.look l).plan (s.readers.look l).handed).leftOut
          then crowd l x.2 else x.2) := by
        split
        · exact Emits.trans _ _ _ h (crowd_emits l x.2)
        · exact h
      obtain ⟨w, e, v, p, k⟩ := k
      rw [k]
      exact ⟨_, w, e, v, p, rfl⟩
    · exact carried
  · exact carried

/-- R4, R48: the count of a line touches lane, reader and writer alone. -/
theorem countLine_frame (l : LaneId) (s : State) :
    ∃ n r w, countLine l s = { s with lanes := n, readers := r, writers := w } := ⟨_, _, _, rfl⟩

/-- CELL_LINE: what a line may change. -/
theorem cellLine_frame (l : LaneId) (line : FeedLine) (s : State) :
    ∃ n r w e v p, cellLine l line s =
      { s with
        lanes := n, readers := r, writers := w, entries := e, flags := v, ports := p } := by
  unfold cellLine
  split
  · exact ⟨s.lanes, s.readers, s.writers, s.entries, s.flags, s.ports, rfl⟩
  · exact ⟨_, s.readers, s.writers, s.entries, s.flags, s.ports, rfl⟩
  · split
    · obtain ⟨n, w, e, v, p, h⟩ := putLine_frame l line s
      rw [h]
      exact ⟨_, _, _, e, v, p, rfl⟩
    · exact ⟨_, s.readers, s.writers, s.entries, s.flags, s.ports, rfl⟩


end Sys2Proof.Machine
end

