-- ==== Sys2Proof/Laws/Ports.lean ====
section
/-! SUPPORT. What each shared operation and each event leaves of the fault flags and the control ports: one
lemma per operation, naming the notices that it can set beside FAULT (R151, R152). -/

namespace Sys2Proof.Machine

/-! ## The bits of flags and notices -/

theorem Notice.bit_lt (n : Notice) : n.bit < 7 := by cases n <;> decide

/-- R175: no two notices share a bit. -/
theorem Notice.bit_inj {m n : Notice} (h : m.bit = n.bit) : m = n := by
  cases m <;> cases n <;> first | rfl | cases h

theorem FaultFlag.bit_lt (f : FaultFlag) : f.bit < 56 := by
  cases f <;> simp only [FaultFlag.bit] <;> omega

/-- R175: no two flags share a bit. -/
theorem FaultFlag.bit_inj {f g : FaultFlag} (h : f.bit = g.bit) : f = g := by
  cases f <;> cases g <;> simp only [FaultFlag.bit] at h <;>
    first
      | rfl
      | (exfalso; omega)
      | (congr 1; apply Fin.ext; omega)

/-- R151: a set notice is set, and every other notice is as it was. -/
theorem CtrlPort.notify_getLsbD (p : CtrlPort) (m n : Notice) :
    (p.notify m).notices.getLsbD n.bit = (p.notices.getLsbD n.bit || decide (n = m)) := by
  have hb := n.bit_lt
  by_cases e : n = m
  · subst e; simp [CtrlPort.notify, hb]
  · have e' : m.bit ≠ n.bit := fun h => e (Notice.bit_inj h).symm
    simp [CtrlPort.notify, BitVec.getLsbD_twoPow, e, e']

/-- R156: a set flag is set, and every other flag is as it was. -/
theorem flagSet_setFlag (f g : FaultFlag) (s : State) :
    flagSet (setFlag f s) g = (flagSet s g || decide (g = f)) := by
  have hb := g.bit_lt
  simp only [flagSet, setFlag_flags, flagMask]
  by_cases e : g = f
  · subst e; simp [hb]
  · have e' : f.bit ≠ g.bit := fun h => e (FaultFlag.bit_inj h).symm
    simp [BitVec.getLsbD_twoPow, e, e']

/-! ## One port -/

theorem PortGains.refl (may : List Notice) (p : CtrlPort) : PortGains may p p :=
  ⟨rfl, fun _ => ⟨id, fun _ => rfl⟩⟩

theorem PortGains.trans {may : List Notice} {p q r : CtrlPort} (h : PortGains may p q)
    (k : PortGains may q r) : PortGains may p r := by
  refine ⟨?_, fun n => ⟨fun x => (k.2 n).1 ((h.2 n).1 x), fun x => ?_⟩⟩
  · rw [k.1, h.1]
  · rw [(k.2 n).2 x, (h.2 n).2 x]

theorem PortGains.weaken {may more : List Notice} {p q : CtrlPort} (h : PortGains may p q)
    (sub : ∀ n ∈ may, n ∈ more) : PortGains more p q :=
  ⟨h.1, fun n => ⟨(h.2 n).1, fun x => (h.2 n).2 fun y => x (sub n y)⟩⟩

/-- R151: a notice set is a gain. -/
theorem PortGains.notify (may : List Notice) (p : CtrlPort) {m : Notice} (h : m ∈ may) :
    PortGains may p (p.notify m) := by
  refine ⟨rfl, fun n => ⟨fun x => ?_, fun x => ?_⟩⟩
  · rw [CtrlPort.notify_getLsbD, x]; rfl
  · rw [CtrlPort.notify_getLsbD]
    have : n ≠ m := fun e => x (e ▸ h)
    simp [this]

/-! ## All ports, and the flags -/

/-- `TellsPorts` in one phase, which composes. -/
def Tells (may : List Notice) (s t : State) : Prop := TellsPorts may s t ∧ t.phase = s.phase

/-- Flags, ports and phase as they were. -/
theorem Tells.same (may : List Notice) {s t : State} (f : t.flags = s.flags) (p : t.ports = s.ports)
    (h : t.phase = s.phase) : Tells may s t := by
  refine ⟨⟨fun g x => ?_, fun k => ⟨?_, ?_⟩⟩, h⟩
  · simpa [flagSet, f] using x
  · rw [p]; exact PortGains.refl _ _
  · unfold FaultHanded noticeSet flagSet
    rw [p, f]
    exact ⟨.inl, fun x => x.elim id fun ⟨_, g, a, b, _⟩ => absurd (a.symm.trans b) (by simp)⟩

theorem Tells.refl (may : List Notice) (s : State) : Tells may s s := Tells.same may rfl rfl rfl

theorem Tells.trans (may : List Notice) (s t u : State) (h : Tells may s t) (k : Tells may t u) :
    Tells may s u := by
  obtain ⟨⟨hf, hp⟩, hh⟩ := h
  obtain ⟨⟨kf, kp⟩, kh⟩ := k
  refine ⟨⟨fun f x => kf f (hf f x), fun c => ⟨(hp c).1.trans (kp c).1, ?_⟩⟩, kh.trans hh⟩
  have mask : (t.ports.look c).faultMask = (s.ports.look c).faultMask := by rw [(hp c).1.1]
  have a := (hp c).2
  have b := (kp c).2
  unfold FaultHanded at a b ⊢
  rw [b, a, mask, hh]
  constructor
  · rintro ((x | ⟨r, f, x, y, z⟩) | ⟨r, f, x, y, z⟩)
    · exact .inl x
    · exact .inr ⟨r, f, x, kf f y, z⟩
    · refine .inr ⟨r, f, ?_, y, z⟩
      cases e : flagSet s f with
      | false => rfl
      | true => rw [hf f e] at x; cases x
  · rintro (x | ⟨r, f, x, y, z⟩)
    · exact .inl (.inl x)
    · cases e : flagSet t f with
      | true => exact .inl (.inr ⟨r, f, x, e, z⟩)
      | false => exact .inr ⟨r, f, e, y, z⟩

theorem Tells.weaken {may more : List Notice} {s t : State} (h : Tells may s t)
    (sub : ∀ n ∈ may, n ∈ more) : Tells more s t :=
  ⟨⟨h.1.1, fun k => ⟨(h.1.2 k).1.weaken (by
    intro n x
    rcases List.mem_cons.mp x with x | x
    · exact List.mem_cons.mpr (.inl x)
    · exact List.mem_cons.mpr (.inr (sub n x))), (h.1.2 k).2⟩⟩, h.2⟩

/-- R152: a port receives FAULT where its mask enables the group. -/
theorem CtrlPort.handFault_getLsbD (p : CtrlPort) (g : FaultGroup) (n : Notice) :
    (p.handFault g).notices.getLsbD n.bit =
      (p.notices.getLsbD n.bit || (decide (n = .fault) && p.faultMask.getLsbD g.bit)) := by
  unfold CtrlPort.handFault
  split
  · rename_i h
    rw [CtrlPort.notify_getLsbD, h, Bool.and_true]
  · rename_i h
    simp only [Bool.not_eq_true] at h
    simp [h]

theorem PortGains.handFault (may : List Notice) (p : CtrlPort) (g : FaultGroup)
    (h : .fault ∈ may) : PortGains may p (p.handFault g) := by
  unfold CtrlPort.handFault
  split
  · exact PortGains.notify may p h
  · exact PortGains.refl may p

/-- R152, R156: a flag set is handed to the ports where it was clear. -/
theorem setFlag_tells (may : List Notice) (f : FaultFlag) (s : State) : Tells may s (setFlag f s) := by
  cases hset : flagSet s f with
  | true =>
    have e : setFlag f s = s := by simp [setFlag, hset]
    rw [e]
    exact Tells.refl may s
  | false =>
    have flags : ∀ g, flagSet (setFlag f s) g = true ↔ flagSet s g = true ∨ g = f := by
      intro g
      rw [flagSet_setFlag]
      simp
    have phase : (setFlag f s).phase = s.phase := by
      obtain ⟨v, p, h⟩ := setFlag_frame f s
      rw [h]
    have ports : ∀ k, (setFlag f s).ports.look k =
        if s.phase = .running then (s.ports.look k).handFault f.group else s.ports.look k := by
      intro k
      unfold setFlag
      rw [hset]
      by_cases r : s.phase = .running <;> simp [r, handFault]
    refine ⟨⟨fun g x => (flags g).mpr (.inl x), fun k => ⟨?_, ?_⟩⟩, phase⟩
    · rw [ports]
      split
      · exact PortGains.handFault _ _ _ (by simp)
      · exact PortGains.refl _ _
    · unfold FaultHanded noticeSet
      rw [ports]
      by_cases r : s.phase = .running
      · rw [if_pos r, CtrlPort.handFault_getLsbD]
        simp only [decide_true, Bool.true_and, Bool.or_eq_true]
        constructor
        · rintro (x | x)
          · exact .inl x
          · exact .inr ⟨r, f, hset, (flags f).mpr (.inr rfl), x⟩
        · rintro (x | ⟨_, g, a, b, m⟩)
          · exact .inl x
          · rcases (flags g).mp b with b | b
            · rw [a] at b; cases b
            · subst b; exact .inr m
      · rw [if_neg r]
        exact ⟨.inl, fun x => x.elim id fun y => absurd y.1 r⟩

/-- R151: a notice other than FAULT is set on one port. -/
theorem setNotice_tells (may : List Notice) (c : CpId) (m : Notice) (s : State) (h : m ∈ may)
    (hm : m ≠ .fault) : Tells may s (setNotice c m s) := by
  refine ⟨⟨fun _ x => x, fun k => ?_⟩, rfl⟩
  by_cases e : c = k
  · subst e
    have p : (setNotice c m s).ports.look c = (s.ports.look c).notify m := by simp [setNotice]
    refine ⟨?_, ?_⟩
    · rw [p]; exact PortGains.notify _ _ (List.mem_cons.mpr (.inr h))
    · unfold FaultHanded noticeSet
      rw [p, CtrlPort.notify_getLsbD]
      have : Notice.fault ≠ m := fun x => hm x.symm
      simp only [this, decide_false, Bool.or_false]
      exact ⟨.inl, fun x => x.elim id fun ⟨_, g, a, b, _⟩ => absurd (a.symm.trans b) (by simp)⟩
  · have p : (setNotice c m s).ports.look k = s.ports.look k := by simp [setNotice, e]
    refine ⟨?_, ?_⟩
    · rw [p]; exact PortGains.refl _ _
    · unfold FaultHanded noticeSet
      rw [p]
      exact ⟨.inl, fun x => x.elim id fun ⟨_, g, a, b, _⟩ => absurd (a.symm.trans b) (by simp)⟩

/-! ## One unit of another block -/

section
variable (may : List Notice) (s : State)

theorem modLane_tells (l : LaneId) (f : Lane → Lane) : Tells may s (modLane l f s) :=
  Tells.same may rfl rfl rfl

theorem modReader_tells (l : LaneId) (f : Reader → Reader) : Tells may s (modReader l f s) :=
  Tells.same may rfl rfl rfl

theorem modWriter_tells (l : LaneId) (f : Writer → Writer) : Tells may s (modWriter l f s) :=
  Tells.same may rfl rfl rfl

theorem modSap_tells (p : SapId) (f : Sap → Sap) : Tells may s (modSap p f s) :=
  Tells.same may rfl rfl rfl

theorem modEntry_tells (d : DestId) (f : Entry → Entry) : Tells may s (modEntry d f s) :=
  Tells.same may rfl rfl rfl

theorem modTake_tells (l : LaneId) (f : TakeUnit → TakeUnit) : Tells may s (modTake l f s) :=
  Tells.same may rfl rfl rfl

end

/-! ## The sample path and the audio ports -/

/-- R68, R70, R71. -/
theorem moveEntry_tells (n : Option Nat) (d : DestId) (s : State) : Tells [] s (moveEntry n d s) := by
  unfold moveEntry
  dsimp only
  have h := modEntry_tells [] s d (movedEntry s n)
  exact ite_relates _ _ _ _ _ (Tells.trans _ _ _ _ h (setFlag_tells _ _ _)) h

/-- R68, R73. -/
theorem readDest_tells (d : DestId) (s : State) : Tells [] s (readDest d s).2 :=
  moveEntry_tells none d s

/-- R70. -/
theorem silentAdvance_tells (n : Nat) (d : DestId) (s : State) : Tells [] s (silentAdvance n d s) :=
  ite_relates _ _ _ _ _ (Tells.refl _ s) (moveEntry_tells _ d s)

/-- R68, R73. -/
theorem readDests_tells (ds : List DestId) (s : State) : Tells [] s (readDests ds s).2 := by
  induction ds generalizing s with
  | nil => exact Tells.refl _ s
  | cons d ds ih => exact Tells.trans _ _ _ _ (readDest_tells d s) (ih _)

/-- R63, R64: the two pieces of work of a port. -/
theorem portWork_tells (p : SapId) (xs : Option (Table Sample 16)) (readFirst : Bool) (s : State) :
    Tells [] s (portWork p xs readFirst s) := by
  have read : ∀ u, Tells [] u (readSlots p u) := fun u => by
    unfold readSlots
    exact Tells.trans _ _ _ _ (readDests_tells (portDests p) u)
      (modSap_tells [] (readDests (portDests p) u).2 p _)
  have write : ∀ x u, Tells [] u (writeSlots p x u) := fun x u => by
    obtain ⟨m, w, h⟩ := writeSlots_frame p x u
    rw [h]
    exact Tells.same _ rfl rfl rfl
  cases xs with
  | none => cases readFirst <;> exact read s
  | some x =>
    cases readFirst
    · exact Tells.trans _ _ _ _ (write x s) (read _)
    · exact Tells.trans _ _ _ _ (read s) (write x _)

/-- WORD_CLOCK_FRAME_START (R63, R65). -/
theorem wordClockFrameStart_tells (p : SapId) (xs : Table Sample 16) (readFirst : Bool) (s : State) :
    Tells [] s (wordClockFrameStart p xs readFirst s) := by
  have sap : ∀ f, Tells [] s (modSap p f s) := modSap_tells _ s p
  have work : ∀ f ys, Tells [] s (portWork p ys readFirst (modSap p f s)) := fun f ys =>
    Tells.trans _ _ _ _ (sap f) (portWork_tells p ys readFirst _)
  unfold wordClockFrameStart presentFrameStart lostFrameStart regainPort
  exact ite_relates _ _ _ _ _
    (ite_relates _ _ _ _ _ (work _ _) (ite_relates _ _ _ _ _ (work _ _) (sap _))) (Tells.refl _ s)

/-- PORT_REGAIN (R65). -/
theorem portRegain_tells (p : SapId) (s : State) : Tells [] s (portRegain p s) := by
  unfold portRegain regainPort
  exact ite_relates _ _ _ _ _
    (Tells.trans _ _ _ _ (modSap_tells _ s p _) (portWork_tells p _ _ _)) (Tells.refl _ s)

/-- PORT_CLOCK_LOST (R64). -/
theorem portClockLost_tells (p : SapId) (s : State) : Tells [] s (portClockLost p s) := by
  unfold portClockLost
  exact ite_relates _ _ _ _ _
    (Tells.trans _ _ _ _ (modSap_tells _ s p _) (setFlag_tells _ _ _)) (Tells.refl _ s)

/-- INTERNAL_TIMER_PERIOD (R64). -/
theorem internalTimerPeriod_tells (p : SapId) (readFirst : Bool) (s : State) :
    Tells [] s (internalTimerPeriod p readFirst s) := by
  unfold internalTimerPeriod
  exact ite_relates _ _ _ _ _
    (Tells.trans _ _ _ _ (modSap_tells _ s p _) (portWork_tells p _ _ _)) (Tells.refl _ s)

/-- SCRUB_VISIT (R87, R88). -/
theorem scrubVisit_tells (s : State) : Tells [] s (scrubVisit s) := by
  have mark := Tells.trans _ _ _ _ (modEntry_tells [] s s.scrubPos Entry.suspected)
    (setFlag_tells [] .entryCheck _)
  have visit : Tells [] s (visitEntry s.scrubPos s) := by
    unfold visitEntry
    dsimp only
    exact ite_relates _ _ _ _ _ (Tells.trans _ _ _ _ mark (Tells.same _ rfl rfl rfl)) (Tells.refl _ s)
  unfold scrubVisit
  dsimp only
  exact ite_relates _ _ _ _ _ (Tells.trans _ _ _ _ visit (Tells.same _ rfl rfl rfl)) (Tells.refl _ s)

/-! ## Lanes and their frames -/

/-- The notices that a lane's events can set beside FAULT (R19, R129). -/
abbrev laneNotices : List Notice := [.lane, .cancelled]

/-- R19. -/
theorem laneNotice_tells (l : LaneId) (s : State) : Tells laneNotices s (laneNotice l s) := by
  unfold laneNotice
  split
  · exact ite_relates _ _ _ _ _ (setNotice_tells _ _ _ s (by simp) (by simp)) (Tells.refl _ s)
  · exact Tells.refl _ s

/-- R129. -/
theorem flush_tells (l : LaneId) (s : State) : Tells laneNotices s (flush l s) := by
  obtain ⟨g, h⟩ := endChanges_frame (s.takes.look l).allChanges (modTake l TakeUnit.flushed s)
  unfold flush
  dsimp only
  have ended : Tells laneNotices s
      (endChanges (s.takes.look l).allChanges (modTake l TakeUnit.flushed s)) := by
    rw [h]; exact Tells.same _ rfl rfl rfl
  exact Tells.trans _ _ _ _ ended
    (foldl_relates _ (Tells.refl _) (Tells.trans _) (fun s c => setNotice c .cancelled s)
      (fun s c => setNotice_tells _ c _ s (by simp) (by simp)) _ _)

/-- R14. -/
theorem enterParked_tells (l : LaneId) (cause : ParkCause) (s : State) :
    Tells laneNotices s (enterParked l cause s) := by
  unfold enterParked
  dsimp only
  refine Tells.trans _ _ _ _ ?_ (laneNotice_tells l _)
  have h := Tells.trans _ _ _ _
    (modLane_tells laneNotices s l fun n => { n with
      state := .parked, parkCause := some cause, relockSeen := false, resumeArmed := false,
      coastCount := 0 })
    (modTake_tells laneNotices _ l fun t => { t with holdPark := true })
  exact ite_relates _ _ _ _ _ (Tells.trans _ _ _ _ h (flush_tells l _)) h

/-- R10, R13, R15. -/
theorem enterRun_tells (l : LaneId) (c : FormatClass) (s : State) :
    Tells laneNotices s (enterRun l c s) := by
  have h : Tells laneNotices s (if (s.lanes.look l).state = .parked then leaveParked l s else s) :=
    ite_relates _ _ _ _ _
      (Tells.trans _ _ _ _ (modLane_tells _ s l _) (modTake_tells _ _ l _)) (Tells.refl _ s)
  unfold enterRun
  dsimp only
  exact Tells.trans _ _ _ _ (Tells.trans _ _ _ _ h (modLane_tells _ _ l _)) (laneNotice_tells l _)

/-- R11. -/
theorem loseLock_tells (l : LaneId) (s : State) : Tells laneNotices s (loseLock l s) := by
  have h : Tells laneNotices s (setFlag (.lockLost l) (departRun l s)) :=
    Tells.trans _ _ _ _
      (Tells.trans _ _ _ _ (modReader_tells _ s l _) (modWriter_tells _ _ l _)) (setFlag_tells _ _ _)
  unfold loseLock
  dsimp only
  exact ite_relates _ _ _ _ _ (Tells.trans _ _ _ _ h (enterParked_tells l _ _))
    (Tells.trans _ _ _ _ (Tells.trans _ _ _ _ h (modLane_tells _ _ l _)) (laneNotice_tells l _))

/-- R10, R13. -/
theorem formatChange_tells (l : LaneId) (s : State) : Tells laneNotices s (formatChange l s) :=
  Tells.trans _ _ _ _ (setFlag_tells _ _ s) (enterParked_tells l _ _)

/-- R31, R33, R47, R50, R52. -/
theorem frameWork_tells (l : LaneId) (s : State) : Tells [] s (frameWork l s) := by
  have settle : Tells [] s (settleFrame l s) := by
    obtain ⟨m, w, h⟩ := settleTracks_frame l (List.finRange 24) s
    have k : Tells [] s ((List.finRange 24).foldl (fun s t => settleTrack l t s) s) := by
      rw [h]; exact Tells.same _ rfl rfl rfl
    unfold settleFrame
    dsimp only
    exact Tells.trans _ _ _ _
      (ite_relates _ _ _ _ _ (Tells.trans _ _ _ _ k (setFlag_tells _ _ _)) k)
      (modReader_tells _ _ l _)
  have complete : ∀ u, Tells [] u (completeFrame l u) := fun u => by
    unfold completeFrame
    exact Tells.trans _ _ _ _
      (foldl_relates _ (Tells.refl _) (Tells.trans _) _
        (fun s t => silentAdvance_tells _ _ s) _ u) (modWriter_tells _ _ l _)
  have close : Tells [] s (closeFrame l s) := Tells.trans _ _ _ _ settle (complete _)
  have crowd : ∀ u, Tells [] u (closeCrowding l u) := fun u =>
    ite_relates _ _ _ _ _ (modWriter_tells _ u l _) (Tells.refl _ u)
  unfold frameWork
  dsimp only
  exact Tells.trans _ _ _ _
    (Tells.trans _ _ _ _ (Tells.trans _ _ _ _ close (modReader_tells _ _ l _))
      (modWriter_tells _ _ l _)) (crowd _)

/-- R8, R13, R15. -/
theorem laneWork_tells (l : LaneId) (s : State) : Tells laneNotices s (laneWork l s) := by
  have lane : ∀ f, Tells laneNotices s (modLane l f s) := modLane_tells _ s l
  unfold laneWork
  split
  · exact ite_relates _ _ _ _ _ (enterParked_tells l _ s) (lane _)
  · unfold parkedWork
    dsimp only
    split
    · exact ite_relates _ _ _ _ _ (enterRun_tells l _ s) (lane _)
    · exact lane _
  · exact Tells.refl _ s

/-- R8: a frame start, whole. -/
theorem frameStart_tells (l : LaneId) (s : State) : Tells laneNotices s (frameStart l s) :=
  Tells.trans _ _ _ _
    (Tells.trans _ _ _ _
      (Tells.trans _ _ _ _ ((frameWork_tells l s).weaken (by simp)) (laneWork_tells l _))
      (modLane_tells _ _ l _)) (modTake_tells _ _ l _)

/-- INPUT_FRAME_START (R7, R10, R11, R13). -/
theorem inputFrameStart_tells (l : LaneId) (s : State) :
    Tells laneNotices s (inputFrameStart l s) := by
  have lane : ∀ f u, Tells laneNotices u (modLane l f u) := fun f u =>
    modLane_tells _ u l f
  have run : ∀ d b u, Tells laneNotices u (inputInRun l d b u) := fun d b u => by
    have h : Tells laneNotices u (modLane l (fun n => { n with detector := d })
        (if opensFrame u l then frameStart l u else u)) :=
      Tells.trans _ _ _ _ (ite_relates _ _ _ _ _ (frameStart_tells l u) (Tells.refl _ u)) (lane _ _)
    unfold inputInRun
    exact ite_relates _ _ _ _ _ (Tells.trans _ _ _ _ h (loseLock_tells l _))
      (ite_relates _ _ _ _ _ h (Tells.trans _ _ _ _ h (lane _ _)))
  have enter : ∀ c u, Tells laneNotices u (runAtInput l c u) := fun c u => by
    unfold runAtInput
    exact ite_relates _ _ _ _ _ (Tells.trans _ _ _ _ (enterRun_tells l c u) (frameStart_tells l _))
      (Tells.trans _ _ _ _ (enterRun_tells l c u) (lane _ _))
  have seek : ∀ d u, Tells laneNotices u (inputInSeek l d u) := fun d u => by
    unfold inputInSeek
    split
    · exact ite_relates _ _ _ _ _ (enter _ u) (formatChange_tells l u)
    · exact Tells.refl _ u
  have coast : ∀ d u, Tells laneNotices u (inputInCoast l d u) := fun d u => by
    unfold inputInCoast
    split
    · exact ite_relates _ _ _ _ _ (enter _ u) (formatChange_tells l u)
    · exact Tells.refl _ u
  unfold inputFrameStart
  have begun : ∀ u, Tells laneNotices u (beginInput l u) := fun u =>
    Tells.trans _ _ _ _
      (Tells.trans _ _ _ _ (modReader_tells _ u l _) (modWriter_tells _ _ l _)) (lane _ _)
  dsimp only
  refine ite_relates _ _ _ _ _ (Tells.trans _ _ _ _ ?_ (begun _)) (Tells.refl _ s)
  split
  · exact run _ _ s
  · exact Tells.trans _ _ _ _ (lane _ s) (seek _ _)
  · exact Tells.trans _ _ _ _ (lane _ s) (coast _ _)
  · exact lane _ s

/-- LATE_FRAME_START (R5, R6, R11). -/
theorem lateFrameStart_tells (l : LaneId) (s : State) : Tells laneNotices s (lateFrameStart l s) := by
  have unlock : ∀ u, Tells laneNotices u (modLane l (fun n => { n with detector := .unlocked }) u) :=
    fun u => modLane_tells _ u l _
  unfold lateFrameStart
  exact ite_relates _ _ _ _ _
    (ite_relates _ _ _ _ _
      (Tells.trans _ _ _ _ (Tells.trans _ _ _ _ (frameStart_tells l s) (unlock _)) (loseLock_tells l _))
      (unlock s)) (Tells.refl _ s)

/-- FRAME_START (R8). -/
theorem timedFrameStart_tells (l : LaneId) (s : State) : Tells laneNotices s (timedFrameStart l s) :=
  ite_relates _ _ _ _ _ (frameStart_tells l s) (Tells.refl _ s)

/-- COAST_EXPIRY (R13). -/
theorem coastExpiry_tells (l : LaneId) (s : State) : Tells laneNotices s (coastExpiry l s) :=
  ite_relates _ _ _ _ _ (enterParked_tells l _ s) (Tells.refl _ s)

/-! ## Sound cells -/

/-- SOUND_CELL (R28, R29). -/
theorem soundCell_tells (l : LaneId) (words : List LaneWord) (s : State) :
    Tells [] s (soundCell l words s) := by
  unfold soundCell
  refine ite_relates _ _ _ _ _ ?_ (Tells.refl _ s)
  split
  · exact Tells.refl _ s
  · exact Tells.refl _ s
  · exact Tells.trans _ _ _ _ (modReader_tells _ s l _) (setFlag_tells _ _ _)
  · rename_i c _
    obtain ⟨r, m, i, h⟩ := takeCell_frame l c s
    rw [h]
    exact Tells.same _ rfl rfl rfl

/-- R48, R49, R51. -/
theorem emitCell_tells (l : LaneId) (c : FormatClass) (i : Nat) (g : GroupId) (s : State) :
    Tells [] s (emitCell l c i g s).2 := by
  have set : ∀ u, Tells [] u (emitSet l g u).2 := fun u => by
    unfold emitSet
    split
    · exact Tells.refl _ u
    · exact Tells.trans _ _ _ _ (readDests_tells (groupDests l g) u) (modWriter_tells _ _ l _)
  have sets : ∀ n u, Tells [] u (emitSets l g n u).2 := fun n => by
    induction n with
    | zero => exact fun u => Tells.refl _ u
    | succ n ih => exact fun u => Tells.trans _ _ _ _ (set u) (ih _)
  exact Tells.trans _ _ _ _ (sets (cellSets c i) s) (modWriter_tells _ _ l _)

/-- R45. -/
theorem emitCells_tells (l : LaneId) (c : FormatClass) (i : Nat) (gs : List GroupId) (s : State) :
    Tells [] s (emitCells l c i gs s).2 := by
  induction gs generalizing s with
  | nil => exact Tells.refl _ s
  | cons g gs ih => exact Tells.trans _ _ _ _ (emitCell_tells l c i g s) (ih _)

/-- R47. -/
theorem crowd_tells (l : LaneId) (s : State) : Tells [] s (crowd l s) := by
  have h := modWriter_tells [] s l fun w => { w with crowding := .thisFrame }
  unfold crowd
  exact ite_relates _ _ _ _ _ (Tells.trans _ _ _ _ h (setFlag_tells _ _ _)) h

/-- CELL_LINE (R45, R47). -/
theorem cellLine_tells (l : LaneId) (line : FeedLine) (s : State) :
    Tells [] s (cellLine l line s) := by
  have carry : Tells [] s (carryLine l line s) := modLane_tells _ s l _
  have build : ∀ c, Tells [] s (buildLine l c line s) := fun c => by
    unfold buildLine
    dsimp only
    have h := emitCells_tells l c (s.writers.look l).linePos
      (planLine c (s.lanes.look l).plan (s.readers.look l).handed).emitted s
    exact Tells.trans _ _ _ _
      (ite_relates _ _ _ _ _ (Tells.trans _ _ _ _ h (crowd_tells l _)) h) (modLane_tells _ _ l _)
  have put : Tells [] s (putLine l line s) := by
    unfold putLine
    split
    · exact ite_relates _ _ _ _ _ (build _) carry
    · exact carry
  have count : ∀ u, Tells [] u (countLine l u) := fun u =>
    Tells.trans _ _ _ _
      (Tells.trans _ _ _ _ (modReader_tells _ u l _) (modLane_tells _ _ l _)) (modWriter_tells _ _ l _)
  unfold cellLine
  split
  · exact Tells.refl _ s
  · exact carry
  · exact ite_relates _ _ _ _ _ (Tells.trans _ _ _ _ put (count _)) carry

end Sys2Proof.Machine
end

