-- ==== Sys2Proof/Tests/Slice0.lean ====
section
/-! SUPPORT. Tests of this model: the ill-formed terms that the check refuses, the worked values of the
spec, one small effect for most commands, and for every statement with hypotheses a state and operands that
meet them, clause by clause. -/

namespace Sys2Proof.Tests

set_option Elab.async false

open Sys2Proof Sys2Proof.Machine

/-! ## Well-formedness: each check refuses an ill-formed term -/

theorem test_wf_soundCell : (Instr.soundCell 0 [0x3C3, 0x03D]).wellFormed = false ∧
    (Instr.soundCell 0 [0x3C3, 0x03C]).wellFormed = true := by decide

theorem test_wf_cellLine : (Instr.cellLine 0 ⟨true, List.replicate 175 0, []⟩).wellFormed = false ∧
    (Instr.cellLine 0 ⟨true, List.replicate 176 0, []⟩).wellFormed = true ∧
    (Instr.cellLine 0 ⟨false, [], []⟩).wellFormed = true := by decide +kernel

theorem test_wf_summaryPoll : (Instr.summaryPoll 0 [0x5C, 0]).wellFormed = false ∧
    (Instr.summaryPoll 0 [0xA3]).wellFormed = false ∧ (Instr.summaryPoll 0 [0]).wellFormed = true ∧
    (Instr.summaryPoll 0 []).wellFormed = true := by decide

/-- The block of KEEPALIVE with tag 07h (R174): its byte 39 is F7h. -/
def keepaliveBlock : List Byte := [0x01, 0x07] ++ List.replicate 37 0 ++ [0xF7]

theorem test_wf_badBlock : (Instr.badBlock 0 keepaliveBlock).wellFormed = false ∧
    (Instr.badBlock 0 (keepaliveBlock.take 39)).wellFormed = true := by decide +kernel

theorem test_wf_undefinedCommand : (Instr.undefinedCommand 0 0x01 0).wellFormed = false ∧
    (Instr.undefinedCommand 0 0x05 0).wellFormed = true := by decide +kernel

theorem test_wf_restartRetain : (Instr.restartRetain 0 0 1).wellFormed = false ∧
    (Instr.restartRetain 0 0 0).wellFormed = true := by decide

/-! ## Values worked in the spec -/

/-- R174: the KEEPALIVE block passes its check and spells the command. -/
theorem test_keepalive_block : decodeBlock 2 0 keepaliveBlock = .keepalive 2 0x07 := by decide +kernel

/-- R145, R173: the transaction byte selects the kind. -/
theorem test_transactions :
    decodeTransaction 2 0 (0x5C :: keepaliveBlock) = .keepalive 2 0x07 ∧
    decodeTransaction 2 0 (0xA3 :: List.replicate 40 9) = .readResponse 2 40 ∧
    decodeTransaction 2 0 [0x00, 0x5C] = .summaryPoll 2 [0x00, 0x5C] ∧
    decodeTransaction 2 0 [] = .summaryPoll 2 [] := by decide +kernel

/-- R147: the three failing cases of the block check, in their order. -/
theorem test_block_faults :
    blockFault (keepaliveBlock.take 39) = some 1 ∧
    blockFault ([0x01, 0x08] ++ List.replicate 37 0 ++ [0xF7]) = some 2 ∧
    blockFault ([0x01, 0x06, 0x01] ++ List.replicate 36 0 ++ [0xF7]) = some 3 := by decide +kernel

/-- R175: STAGE of destination 210 from source 135, fade code 2, tag FFh and delay 128, byte by byte. -/
theorem test_stage_block :
    commandOf 1 0 ([0x20, 9, 0, 0, 210, 0, 135, 2, 0xFF, 0, 128] ++ List.replicate 29 0) =
      .stage 1 9 210 135 2 0xFF 128 := by decide +kernel

/-- R175: CLEAR FAULTS with selection byte 5 bit 7 names ENTRY_CHECK, bit 47. -/
theorem test_clear_block :
    commandOf 1 0 ([0x41, 9, 0, 0, 0, 0, 0, 0, 0x80] ++ List.replicate 31 0) =
      .clearFaults 1 9 (BitVec.twoPow 64 47) := by decide +kernel

/-- R178: the words of a flagged cell of group 4 with no set and zero tag bytes. -/
theorem test_cell_words : cellWords 4 true [] (Table.fill 3 0) =
    [0x3C3, 0x03C, 0x25A, 0x244, 0x200, 0x200, 0x200, 0x2A0] := by decide +kernel

/-- R28, R178: the reader finds that cell valid, and discards it with another check word. -/
theorem test_cell_scan :
    scanCell [0x3C3, 0x03C, 0x25A, 0x244, 0x200, 0x200, 0x200, 0x2A0] =
      .valid ⟨4, true, [], Table.fill 3 0,
        [0x3C3, 0x03C, 0x25A, 0x244, 0x200, 0x200, 0x200, 0x2A0]⟩ ∧
    scanCell [0x3C3, 0x03C, 0x25A, 0x244, 0x200, 0x200, 0x200, 0x3FF] = .discarded 8 ∧
    scanCell [0x3C3, 0x03C, 0x25B, 0x244] = .discarded 3 ∧
    scanCell [0x3C3, 0x03C, 0x15B, 0x244] = .other := by decide +kernel

/-- R48: the cadence of FC25: 3 sets on lines 0 and 9, 4 on line 10. -/
theorem test_cadence : cellSets .fc25 0 = 3 ∧ cellSets .fc25 9 = 3 ∧ cellSets .fc25 10 = 4 ∧
    cadence .fb50 300 = 389 := by decide +kernel

/-- R60: the tone at −20 dBFS swings 838861 either way, from 0. -/
theorem test_tone : (toneSample (-20) 0).toInt = 0 ∧ (toneSample (-20) 12).toInt = 838861 ∧
    (toneSample (-20) 36).toInt = -838861 ∧ (toneSample (-20) 24).toInt = 0 := by decide +kernel

/-- R2, R8: the switch point falls one sixteenth of the period after the frame start, before a loss by a
late frame start can come. -/
theorem test_periods : Config.framePeriod 1920 = 40 * Config.tickMs ∧
    Config.framePeriod 960 = 20 * Config.tickMs ∧ Config.clockLoss = 4 * Config.wordPeriod := by decide

/-- R156: the mask of a group is made of its flags. -/
theorem test_group_masks : ∀ l : LaneId, ∀ g ∈ allGroups,
    (groupMask g).getLsbD (FaultFlag.lockLost l).bit = (g == .lane) ∧
    (groupMask g).getLsbD (FaultFlag.formatChanged l).bit = (g == .lane) ∧
    (groupMask g).getLsbD (FaultFlag.cellErr l).bit = (g == .carriage) ∧
    (groupMask g).getLsbD (FaultFlag.crowded l).bit = (g == .carriage) ∧
    (groupMask g).getLsbD (FaultFlag.slip l).bit = (g == .audio) := by decide +kernel

/-- R156: the mask of a group is made of its flags, ports, control ports and store. -/
theorem test_group_masks_ports : ∀ g ∈ allGroups,
    (∀ p : SapId, (groupMask g).getLsbD (FaultFlag.portClockLost p).bit = (g == .audio)) ∧
    (∀ c : CpId, (groupMask g).getLsbD (FaultFlag.portLate c).bit = (g == .control) ∧
      (groupMask g).getLsbD (FaultFlag.portLost c).bit = (g == .control) ∧
      (groupMask g).getLsbD (FaultFlag.blockErr c).bit = (g == .control)) ∧
    (groupMask g).getLsbD FaultFlag.entryCheck.bit = (g == .patch) ∧
    (groupMask g).getLsbD FaultFlag.sceneLoadFail.bit = (g == .store) ∧
    (groupMask g).getLsbD FaultFlag.sceneSaveFail.bit = (g == .store) := by decide +kernel

/-! ## States for the witnesses -/

/-- A running engine with CP0 senior: CP0 holds D0..D23, L0 and D192, CP1 holds D24 and L1. -/
def base : State :=
  { State.blockReset [] 0 0 .running false (some 0) .nothing with
    holders := Table.gen fun i =>
      if i.val < 24 ∨ i.val = 192 ∨ i.val = 256 then some 0
      else if i.val = 24 ∨ i.val = 257 then some 1 else none }

/-- The state with a lane replaced. -/
def withLane (l : LaneId) (n : Lane) (s : State) : State := modLane l (fun _ => n) s

/-- A lane in RUN with a locked FB50 feed whose last input frame start fell at 0. -/
def runLane : Lane :=
  { laneAtReset 0 with
    state := .run, expected := some .fb50, detector := .locked .fb50, frameSamples := 960
    inputAt := some 0, inputLines := 740 }

/-- A change of D1 to S3 with a fade of 64 samples that names T2. -/
def stagedChange : Change := ⟨1, 3, 64, some (.record 2), none⟩

/-- A change of D0 to silence with a delay target. -/
def queuedChange : Change := ⟨0, 257, 0, none, some 100⟩

/-- A Take Unit's state with a staged change and a queued batch, frozen by a park. -/
def parkedTake : TakeUnit :=
  { takeAtReset with
    staging := (Table.fill 3 []).put 0 [stagedChange]
    queue := [⟨0, 0, 3, [queuedChange]⟩]
    closureCounter := 1
    timer := .counting 3
    holdPark := true }

/-- The same, unheld and at the end of its count. -/
def readyTake : TakeUnit := { parkedTake with timer := .counting 0, holdPark := false }

/-- A fading entry with a nudge pending. -/
def fadingEntry : Entry :=
  { entryAtReset with
    source := 3, readIndex := 4000, fade := some ⟨.tone, 47, 64, 63⟩, nudge := some (-15) }

/-- A sample of each kind of held state: a parked lane with changes waiting, a fading entry, a written
record, a crowded lane, a LOST audio port, a LOST control port, a suspect and a save in progress. -/
def busy : State :=
  { base with
    lanes := base.lanes.put 0 { laneAtReset 0 with
      state := .parked, expected := some .fb50, parkCause := some .command }
    writers := base.writers.put 3 { writerAtReset with crowding := .lastFrame }
    mem := [(5, 1), (6, 2)]
    saps := base.saps.put 1 { sapAtReset 0 1 with present := false, regain := 7 }
    entries := base.entries.put 2 fadingEntry
    takes := base.takes.put 0 parkedTake
    tags := base.tags.put 2 ⟨some ⟨1, [0x41], Table.fill 8 0, some 0⟩, 1⟩
    ports := (base.ports.put 1 { portAtReset 0 with
      slot := .executing 0x48 9, overrunMark := true }).put 2
        { portAtReset 0 with liveness := .lost }
    flags := flagMask (.crowded 3) ||| flagMask (.portClockLost 1) ||| flagMask .entryCheck
    firstSuspect := some 7
    store := .torn
    saving := some ⟨1, defaultScene, 0⟩ }

/-! ## What every step keeps: a state with every form, and a step from it -/

theorem witness_storeForm : StoreForm busy := by unfold StoreForm; decide +kernel

theorem witness_lanesForm : LanesForm busy := by unfold LanesForm LaneForm; decide +kernel

theorem witness_takesForm : TakesForm busy := by
  intro l
  by_cases h : l = 0
  · subst h
    refine ⟨⟨3, by decide +kernel, by decide +kernel⟩, ?_⟩
    decide +kernel
  · have e : busy.takes.look l = takeAtReset := by
      revert h; revert l; decide +kernel
    rw [e]
    refine ⟨⟨rfl, rfl⟩, ?_⟩
    decide +kernel

theorem witness_claimsForm : ClaimsForm busy := by unfold ClaimsForm ChangesForm; decide +kernel

theorem witness_entriesForm : EntriesForm busy := by
  refine ⟨fun d => ?_, ?_⟩
  · by_cases h : d = 2
    · have e : busy.entries.look d = fadingEntry := by
        subst h; exact Table.look_put_self _ _ _
      rw [e]
      refine ⟨fun f hf => ?_, fun a ha => ?_⟩
      · have : f = ⟨.tone, 47, 64, 63⟩ := (Option.some.inj hf).symm
        subst this
        exact ⟨rfl, .inl rfl, by decide⟩
      · have : a = -15 := (Option.some.inj ha).symm
        subst this
        decide
    · have e : (busy.entries.look d).fade = none ∧ (busy.entries.look d).nudge = none := by
        revert h; revert d; decide +kernel
      refine ⟨fun f hf => ?_, fun a ha => ?_⟩
      · rw [e.1] at hf; cases hf
      · rw [e.2] at ha; cases ha
  · unfold FadeLength; decide +kernel

theorem witness_lostForm : LostForm busy := by unfold LostForm; decide +kernel

theorem witness_saveForm : SaveForm busy := by
  refine ⟨fun c => ?_, by decide +kernel⟩
  have h : ∀ c, (busy.ports.look c).slot.isExecuting = decide (c = 1) := by decide +kernel
  rw [h c]
  constructor
  · intro hc
    exact ⟨⟨1, defaultScene, 0⟩, rfl, (of_decide_eq_true hc).symm⟩
  · rintro ⟨v, hv, hc⟩
    have : v = ⟨1, defaultScene, 0⟩ := (Option.some.inj hv).symm
    subst this
    simp [← hc]

theorem witness_conditionForm : ConditionForm busy := by unfold ConditionForm; decide +kernel

theorem witness_countForm : CountForm busy := by unfold CountForm; decide +kernel

/-- From that state a step answers next: the queue is empty and the clock runs. -/
theorem witness_step : ∃ t, step busy = .next t := ⟨idle busy, rfl⟩

/-! ## The step, start-up and restart -/

theorem witness_stepRunsFrontCommand :
    { base with pending := [.keepalive 0 7] }.pending = .keepalive 0 7 :: [] := rfl

/-- Nothing is due right after reset; 50 ms later the load, a word clock lost and frames are. -/
theorem witness_idle : State.reset.pending = [] ∧ due State.reset = [] ∧
    due { State.reset with now := 38400 } ≠ [] := by decide +kernel

/-- The due load is taken: of the events due at 50 ms the queue receives one. -/
theorem test_idle_tick : (idle State.reset).now = 1 ∧ (idle State.reset).pending = [] := by
  decide +kernel

theorem witness_resets : base.resetLow = false ∧ (resetNLow base).phase = .heldReset ∧
    (resetNLow base).resetLow = true ∧ base.phase ≠ .unpowered ∧ base.phase ≠ .heldReset ∧
    (powerLoss base).phase = .unpowered ∧ busy.phase ≠ .unpowered ∧
    busy.saving.isSome = true := by decide +kernel

/-- R169: with RESET_N low from before power-up the engine is held until the release. -/
theorem test_resetHeld : (powerUp 1 (resetNLow (powerLoss base))).phase = .heldReset ∧
    (resetNRelease 1 (powerUp 2 (resetNLow (powerLoss base)))).phase = .starting ∧
    (resetNRelease 1 (powerUp 2 (resetNLow (powerLoss base)))).senior = some 0 := by decide +kernel

theorem witness_sceneLoad : State.reset.phase = .starting ∧
    chosenScene State.reset.store = (defaultScene, .defaultNoImage) := ⟨rfl, rfl⟩

/-- An image whose check agrees and whose values are in range, one with a coast limit out of range, and one
whose check does not agree. -/
theorem witness_chosenScene :
    defaultScene.inRange = true ∧
    { defaultScene with
      lanes := Table.fill 8 { defaultSceneLane with coastLimit := 251 } }.inRange = false ∧
    Config.sceneCheck defaultScene + 1 ≠ Config.sceneCheck defaultScene := by
  refine ⟨by decide +kernel, by decide +kernel, fun h => ?_⟩
  have h1 : (1 : BitVec 32) = 0 := by
    have := congrArg (· - Config.sceneCheck defaultScene) h
    simp at this
  exact absurd h1 (by decide)

/-- A scene in which D0 names T2, which is held, D1 names T3, which is free, and D2 passes. -/
def taggedScene : Scene :=
  { defaultScene with
    patch := ((defaultScene.patch.put 0 ⟨3, 2, 64⟩).put 1 ⟨4, 3, 64⟩).put 2 ⟨5, 0x41, 64⟩
    tags := defaultScene.tags.put 2 (some ⟨1, [0x41], Table.fill 8 0, none⟩) }

theorem witness_loadedTags :
    chosenScene (.image taggedScene (Config.sceneCheck taggedScene)) = (taggedScene, .image) ∧
    ((taggedScene.patch.look 0).tag.toNat = (2 : TagId).val ∧
      (taggedScene.tags.look 2).isSome = true) ∧
    ((taggedScene.patch.look 1).tag.toNat = (3 : TagId).val ∧ taggedScene.tags.look 3 = none) ∧
    (taggedScene.patch.look 2).tag = 0x41 ∧ (taggedScene.patch.look 3).tag = 0x40 := by
  refine ⟨?_, by decide +kernel⟩
  have h : taggedScene.inRange = true := by decide +kernel
  simp [chosenScene, h]

/-- R143: an entry that names a free record is loaded with NONE. -/
theorem test_loadedTags : (loadedEntry taggedScene 0).counted = .record 2 ∧
    (loadedEntry taggedScene 1).tag = 0x40 ∧ (loadedEntry taggedScene 1).counted = .none ∧
    (loadedEntry taggedScene 2).counted = .pass := by decide +kernel

/-- R169, R24: the default scene leaves every lane OFF and every port SILENT with RESTARTED. -/
theorem test_sceneLoad :
    ∃ t, exec .sceneLoad State.reset = .next t ∧ t.phase = .running ∧
      (t.ports.look 1).notices = 0x40 ∧ (t.lanes.look 5).state = .off ∧
      t.loadOutcome = .defaultNoImage := ⟨sceneLoad State.reset, rfl, by decide +kernel⟩

theorem witness_restarts : Takes base 0 ∧ base.senior = some 0 ∧ base.saving = none ∧
    Takes busy 0 ∧ busy.senior = some 0 ∧ busy.saving.isSome = true ∧ (2 : Byte) ≠ 0 ∧
    (2 : Byte) ≠ 1 := by
  decide +kernel

/-- R172: RESTART RETAIN on a state with conditions: the first-suspect record goes, CROWDED[3] is set
again. -/
theorem test_restartRetain :
    (restartRetain { busy with saving := none }).firstSuspect = none ∧
    flagSet (restartRetain { busy with saving := none }) (.crowded 3) = true ∧
    flagSet (restartRetain { busy with saving := none }) .entryCheck = false := by decide +kernel

/-! ## Control ports -/

theorem witness_takes : Takes base 0 ∧ Takes base 1 ∧ Takes base 2 := by decide +kernel

/-- R146, R174: KEEPALIVE is answered OK with its tag, and the port is LIVE. -/
theorem test_keepalive : ∃ t, exec (.keepalive 2 7) base = .next t ∧
    waiting t 2 = some ⟨0x01, 7, .ok, false, []⟩ ∧ (t.ports.look 2).liveness = .live :=
  ⟨_, rfl, by decide +kernel⟩

theorem witness_lines : base.phase = .running ∧ State.reset.phase ≠ .running ∧
    awake base = true ∧ awake State.reset = true ∧ awake (resetNLow base) = false ∧
    awake (powerLoss base) = false := by decide +kernel

/-- R161, R153: with CROWDED[3] set the FAULT line is asserted, and released where CARRIAGE, AUDIO and PATCH
are masked. -/
theorem test_lines : faultLine busy = true ∧ faultLine { busy with lineMask := 0x31 } = false ∧
    groupSummary busy = 0x0E := by decide +kernel

/-- R163: during start-up a flag asserts the FAULT line, and no port is told. -/
theorem test_startupLine : faultLine (portClockLost 1 { State.reset with now := 64 }) = true ∧
    noticeSet (portClockLost 1 { State.reset with now := 64 }) 0 .fault = false := by decide +kernel

theorem witness_notices :
    (0x7F : Byte).getLsbD 7 = false ∧ (0x80 : Byte).getLsbD 7 = true ∧
    (0x3F : Byte).getLsbD 6 = false ∧ (0x3F : Byte).getLsbD 7 = false ∧
    (0x40 : Byte).getLsbD 6 = true := by decide

/-- A port with a fixed transaction and a waiting response. -/
def reading : State :=
  modPort 1 (fun p => { p with
    slot := .answered ⟨0x01, 7, .ok, false, []⟩
    transaction := some ⟨0x02, ⟨0x01, 7, .ok, false, []⟩, true⟩ }) base

theorem witness_chipSelect : awake base = true ∧
    (reading.ports.look 1).transaction = some ⟨0x02, ⟨0x01, 7, .ok, false, []⟩, true⟩ ∧
    (∃ r, waiting reading 1 = some r) ∧ (base.ports.look 0).slot = .empty ∧
    (busy.ports.look 1).slot = .executing 0x48 9 ∧
    ([] : List Byte).head? ≠ some 0x5C ∧ [(0x5B : Byte)].head? ≠ some 0xA3 ∧
    [(0x5C : Byte), 1].head? = some 0x5C ∧ [(0xA3 : Byte)].head? = some 0xA3 :=
  ⟨by decide +kernel, by decide +kernel, ⟨_, rfl⟩, by decide +kernel, by decide +kernel,
    by decide +kernel⟩

/-- R145: a poll of three bytes shifts out the summary byte that was fixed and two zeros. -/
theorem test_summaryPoll : ((summaryPoll 1 [0, 0x5C, 7] reading).ports.look 1).shifted = [2, 0, 0] ∧
    ((summaryPoll 1 [] reading).ports.look 1).shifted = [2] ∧
    ((summaryPoll 1 [0] reading).ports.look 1).slot = (reading.ports.look 1).slot := by
  decide +kernel

theorem witness_readResponse : awake reading = true ∧
    (reading.ports.look 1).transaction = some ⟨0x02, ⟨0x01, 7, .ok, false, []⟩, true⟩ ∧
    (reading.ports.look 1).slot = .answered ⟨0x01, 7, .ok, false, []⟩ ∧ 40 ≤ 40 ∧ 39 < 40 := by
  decide +kernel

/-- R146, R149: the whole reading empties the slot and shifts out 41 bytes; a reading of 39 leaves it. -/
theorem test_readResponse :
    ((readResponse 1 40 reading).ports.look 1).slot = .empty ∧
    ((readResponse 1 40 reading).ports.look 1).shifted = 0x02 :: keepaliveBlock ∧
    ((readResponse 1 39 reading).ports.look 1).slot = .answered ⟨0x01, 7, .ok, false, []⟩ := by
  decide +kernel

/-- R146: a response that has left the slot since chip select fell, by another port's RESTART RETAIN. -/
theorem witness_readGone : ∃ t, (reading.ports.look 1).transaction = some t ∧ t.waiting = true ∧
    ((modPort 1 (fun p => { p with slot := .empty }) reading).ports.look 1).slot ≠
      .answered t.response := ⟨_, rfl, by decide +kernel, by decide +kernel⟩

theorem witness_untaken : Takes base 1 ∧ (blockFault []).isSome = true ∧
    (blockFault (List.replicate 40 1)).isSome = true ∧
    (blockFault ([0x01, 0x06, 0x01] ++ List.replicate 36 0 ++ [0xF7])).isSome = true ∧
    busy.phase = .running ∧ (busy.ports.look 1).slot.isExecuting = true ∧
    State.reset.phase = .starting := by decide +kernel

/-- R147: a short block is answered BAD_BLOCK with case 1, and BLOCK_ERR[1] is set. -/
theorem test_badBlock : waiting (badBlock 1 [0x01, 0x07] base) 1 =
      some ⟨0x01, 0x07, .badBlock, false, [1]⟩ ∧
    flagSet (badBlock 1 [0x01, 0x07] base) (.blockErr 1) = true ∧
    noticeSet (badBlock 1 [0x01, 0x07] base) 2 .fault = true ∧
    (badBlock 1 [0x01, 0x07] (modPort 2 (fun p => { p with faultMask := 0x2F }) base)).ports.look 2 =
      { base.ports.look 2 with faultMask := 0x2F } := by decide +kernel

/-- R148: a block on an EXECUTING slot leaves the slot. -/
theorem test_overrun : ((overrun 1 [] { busy with
      ports := busy.ports.put 1 { busy.ports.look 1 with overrunMark := false } }).ports.look
    1).overrunMark = true := by decide +kernel

/-! ## Claims and liveness -/

theorem witness_claim :
    ItemRange 24 0 24 ∧ ItemRange 24 240 24 ∧ ItemRange 24 263 1 ∧
    (∀ i, InItems 0 24 i → base.holders.look i = none ∨ base.holders.look i = some 0) ∧
    ItemRange 24 1 24 ∧ InItems 1 24 24 ∧ base.holders.look 24 = some 1 ∧ (1 : CpId) ≠ 0 ∧
    (∀ j, InItems 1 24 j → j < 24 →
      base.holders.look j = none ∨ base.holders.look j = some 0) ∧
    ¬ ItemRange 24 241 24 ∧ ¬ ItemRange 24 0 25 ∧ ¬ ItemRange 24 0 0 ∧
    ¬ ItemRange 24 0xFFFF 1 := by
  decide +kernel

/-- R98: CP1 takes D25..D29, and nothing of D20..D29. -/
theorem test_claim :
    ∃ t u, exec (.claim 1 0 25 5) base = .next t ∧ t.holders.look 29 = some 1 ∧
      exec (.claim 1 0 20 10) base = .next u ∧ u.holders.look 29 = none :=
  ⟨_, _, rfl, by decide +kernel, rfl, by decide +kernel⟩

theorem witness_release : ItemRange 24 0 24 ∧ ¬ ItemRange 24 0 25 ∧ InItems 0 24 (destItem 1) ∧
    busy.holders.look (destItem 1) = some 0 ∧
    changesBy (busy.takes.look (timingLane busy 1)) 0 = [stagedChange, queuedChange] ∧
    (busy.takes.look 0).queue.head? = some ⟨0, 0, 3, [queuedChange]⟩ := by decide +kernel

/-- R99, R128: the release of D1 withdraws the staged change, and its tag count falls. -/
theorem test_release : ∃ t, exec (.release 0 0 1 1) busy = .next t ∧
    (t.tags.look 2).count = 0 ∧ noticeSet t 0 .withdrawn = true ∧
    (t.takes.look 0).staging.look 0 = [] ∧ (t.takes.look 0).timer = .counting 3 :=
  ⟨_, rfl, by decide +kernel⟩

/-- R127, R128: the release of D0 empties the head batch, and the timer is IDLE. -/
theorem test_release_head : ∃ t, exec (.release 0 0 0 1) busy = .next t ∧
    (t.takes.look 0).queue = [] ∧ (t.takes.look 0).timer = .idle ∧
    (t.takes.look 0).staging.look 0 = [stagedChange] := ⟨_, rfl, by decide +kernel⟩

theorem witness_seize : Takes base 0 ∧ base.senior = some 0 ∧ ItemRange 24 24 24 ∧
    ¬ ItemRange 24 264 1 ∧ (∃ i, InItems 24 24 i ∧ base.holders.look i = some 1) ∧
    (∀ i, InItems 24 24 i → base.holders.look i ≠ some 2) := by decide +kernel

theorem witness_senior : Takes base 1 ∧ base.senior ≠ some 1 ∧ ItemRange 24 240 24 ∧
    WatchRange 100 1 ∧ WatchRange 5000 6 ∧ WatchRange 900 1 ∧ WatchRange 5000 60 ∧
    (0xE2 : Byte).toInt = -30 ∧ (0xF6 : Byte).toInt = -10 ∧ (63 : Byte).toNat < 64 ∧
    (255 : BitVec 16).toNat < 256 := by decide +kernel

theorem witness_reads : ItemRange 32 232 32 ∧ ¬ ItemRange 32 233 32 ∧ ¬ ItemRange 32 0 33 ∧
    laneField 7 = some 7 ∧ laneField 8 = none := by decide +kernel

/-- R103: READ CLAIMS answers the codes of the holders. -/
theorem test_readClaims : ∃ t, exec (.readClaims 2 0 23 3) base = .next t ∧
    waiting t 2 = some ⟨0x0B, 0, .ok, false, [0, 23, 3, 1, 2, 0]⟩ := ⟨_, rfl, by decide +kernel⟩

/-- A port LIVE for a second and another SILENT for ten. -/
def waited : State :=
  { modPort 1 (fun p => { p with liveness := .live, watchAt := 9000 * 768 }) base with
    now := 10000 * 768 }

theorem witness_setWatch : Takes waited 0 ∧ waited.senior = some 0 ∧ WatchRange 1000 10 ∧
    ¬ WatchRange 1050 10 ∧ ¬ WatchRange 1000 1 ∧ ¬ WatchRange 0 1 ∧ ¬ WatchRange 5100 60 ∧
    ¬ WatchRange 100 61 ∧ (waited.ports.look 1).liveness = .live ∧
    1000 * 768 ≤ waited.now - (waited.ports.look 1).watchAt ∧
    (waited.ports.look 2).liveness ≠ .lost ∧
    10 * 1000 * 768 ≤ waited.now - (waited.ports.look 2).watchAt := by decide +kernel

/-- The same with CP2 just answered, and a change of D24 staged by CP1 that names its own record. -/
def waitedStaged : State :=
  modPort 2 (fun p => { p with watchAt := waited.now }) <|
  modTag 2 (fun _ => ⟨some ⟨1, [], Table.fill 8 0, some 1⟩, 1⟩)
    (modTake 1 (fun t => { t with staging := t.staging.put 1 [⟨24, 3, 0, some (.record 2), none⟩] })
      waited)

/-- R109: a lost interval that CP1 has passed takes its claims, its change and its record's author; one that it
has not passed leaves them. CP0, the caller, keeps its own in both. -/
theorem test_setWatch : ∃ t u,
    exec (.setWatch 0 0 100 1) waitedStaged = .next t ∧
      ((t.ports.look 1).liveness = .lost ∧ t.holders.look 24 = none ∧ t.holders.look 0 = some 0 ∧
        (t.takes.look 1).staging.look 1 = [] ∧ (t.tags.look 2).count = 0 ∧
        (t.tags.look 2).content = some ⟨1, [], Table.fill 8 0, none⟩ ∧
        (t.ports.look 1).notices = 0x23 ∧ (t.ports.look 2).notices = 0x20 ∧
        t.flags = flagMask (.portLate 1) ||| flagMask (.portLost 1)) ∧
      exec (.setWatch 0 0 1000 10) waitedStaged = .next u ∧
      (u.ports.look 1).liveness = .late ∧ u.holders.look 24 = some 1 ∧
        u.takes.look 1 = waitedStaged.takes.look 1 ∧ u.tags.look 2 = waitedStaged.tags.look 2 ∧
        (u.ports.look 1).notices = 0x20 ∧ (u.ports.look 0).notices = 0x20 ∧
        u.flags = flagMask (.portLate 1) :=
  ⟨_, _, rfl, by decide +kernel, rfl, by decide +kernel⟩

theorem witness_lateness : waited.phase = .running ∧ (waited.ports.look 1).liveness = .live ∧
    waited.lateMs * 768 ≤ waited.now - (waited.ports.look 1).watchAt ∧
    (waited.ports.look 0).liveness = .silent ∧
    waited.lostSeconds * 1000 * 768 ≤ waited.now - (waited.ports.look 0).watchAt ∧
    waited.holders.look (destItem 0) = some 0 := by decide +kernel

/-- R106, R107: at these moments, and not a tick before, the ports become LATE and LOST. -/
theorem test_lateness : ((portLate 1 waited).ports.look 1).liveness = .late ∧
    ((portLate 1 { waited with now := waited.now - 1 }).ports.look 1).liveness = .live ∧
    ((portLost 0 waited).ports.look 0).liveness = .lost ∧ (portLost 0 waited).holders.look 0 = none ∧
    ((portLost 0 { waited with now := waited.now - 1 }).ports.look 0).liveness = .silent := by
  decide +kernel

/-! ## Lane commands -/

/-- L0 in each lane state, beside the OFF of the reset. -/
def lane0 (x : LaneState) (cause : Option ParkCause) : State :=
  withLane 0 { runLane with state := x, parkCause := cause } base

theorem witness_laneChecks : Takes base 0 ∧ 8 ≤ (8 : Byte).toNat ∧ laneField 0 = some 0 ∧
    laneField 7 = some 7 ∧ base.holders.look (laneItem 7) ≠ some 0 ∧ (2 : Byte).toNat ≤ 2 ∧
    base.holders.look (laneItem 0) = some 0 ∧ 2 < (3 : Byte).toNat ∧ 250 < (251 : Byte).toNat ∧
    ((lane0 .run none).lanes.look 0).state ≠ .off ∧ (base.lanes.look 0).state ≠ .run ∧
    (base.lanes.look 0).state ≠ .coast ∧ (base.lanes.look 0).state ≠ .parked := by decide +kernel

/-- R20: BAD_ARG comes before NOT_OWNER, and a byte of 3 or more is no bar to it elsewhere. -/
theorem test_laneOrder : base.holders.look (laneItem 0) ≠ some 1 ∧ 255 ≤ (255 : Byte).toNat ∧
    ∃ t u v, exec (.setParkMode 1 0 0 3) base = .next t ∧ ((waiting t 1).map (·.result)) = some .badArg ∧
      exec (.setEmit 1 0 0 255) base = .next u ∧ ((waiting u 1).map (·.result)) = some .notOwner ∧
      exec (.setCoastLimit 1 0 0 250) base = .next v ∧
      ((waiting v 1).map (·.result)) = some .notOwner :=
  ⟨by decide +kernel, by decide, _, _, _, rfl, by decide +kernel, rfl, by decide +kernel, rfl,
    by decide +kernel⟩

theorem witness_laneMoves : Takes (lane0 .run none) 0 ∧ (base.lanes.look 0).state = .off ∧
    (lane0 .run none).holders.look (laneItem 0) = some 0 ∧
    ((lane0 .parked (some .format)).lanes.look 0).state = .parked ∧
    ((lane0 .run none).lanes.look 0).state = .run ∧
    ((lane0 .coast none).lanes.look 0).state = .coast ∧ parkModeField 2 = some .latch ∧
    (250 : Byte).toNat ≤ 250 := by decide +kernel

/-- R9, R16, R17, R18: the four moves of a lane. -/
theorem test_laneMoves :
    ((laneEnable 0 base).lanes.look 0).state = .seek ∧
    ((lanePark 0 (lane0 .run none)).lanes.look 0).parkCause = some .command ∧
    ((lanePark 0 (lane0 .run none)).takes.look 0).holdPark = true ∧
    ((laneResume 0 (lane0 .parked (some .format))).lanes.look 0).expected = none ∧
    ((laneDisable 0 (lane0 .coast none)).lanes.look 0).expected = some .fb50 := by decide +kernel

/-- R14, R129: a park in FLUSH mode removes every batch, and the owner receives CANCELLED. -/
theorem test_flush :
    let s := lanePark 0 (modLane 0 (fun n => { n with state := .run, parkMode := .flush }) busy)
    (s.takes.look 0).allChanges = [] ∧ (s.tags.look 2).count = 0 ∧
      (s.ports.look 0).notices = 0x18 ∧ s.ports.look 1 = busy.ports.look 1 := by decide +kernel

/-- R23: SET EMIT after SET STRIP keeps the strip set of the pending plan. -/
theorem test_plans :
    (((setEmit 3 0 (setStrip 4 0 base)).lanes.look 0).pendingPlan) = some ⟨3, 4⟩ := by decide +kernel

/-- L0 in RUN in mid-frame: group 1 LAPSING with its mark set, a surplus, an assembly and a kept block. -/
def departing : State :=
  { lane0 .run none with
    readers := base.readers.put 0 { readerAtReset with
      groups := (Table.fill 8 groupReadAtReset).put 1 ⟨.lapsing, 2, 7, true⟩
      surplus := true
      tracks := (Table.fill 24 ⟨[], none⟩).put 3 ⟨[9], some (Table.fill 32 5)⟩
      parsing := true } }

/-- R32, R34, R36, R38: each departure from RUN drops all this but the sets and the surplus. -/
theorem test_departed :
    ReaderDeparted ((lanePark 0 departing).readers.look 0) ∧
    ReaderDeparted ((laneDisable 0 departing).readers.look 0) ∧
    ReaderDeparted ((inputFrameStart 0 { departing with now := 7679 }).readers.look 0) ∧
    ReaderDeparted ((lateFrameStart 0 { departing with now := 17281 }).readers.look 0) ∧
    (((lanePark 0 departing).readers.look 0).groups.look 1).setCount = 7 ∧
    ((lanePark 0 departing).readers.look 0).surplus = true := by
  unfold ReaderDeparted
  decide +kernel

theorem witness_readLane : laneField 7 = some 7 ∧ (23 : Byte).toNat = (23 : TrackId).val ∧
    8 ≤ (8 : Byte).toNat ∧ 2 ≤ (2 : Byte).toNat ∧ 24 ≤ (24 : Byte).toNat := by decide

/-- R22: READ LANE of a lane in RUN. -/
theorem test_readLane : ∃ t, exec (.readLane 2 0 0 0 0) (lane0 .run none) = .next t ∧
    ((waiting t 2).map fun r => r.payload.take 8) = some [2, 4, 2, 4, 0, 0, 25, 0] :=
  ⟨_, rfl, by decide +kernel⟩

/-! ## Take queues -/

/-- D1 from S3 with a fade of 64, tag T2, no delay target: the fields and the change they spell. -/
theorem witness_stage : changeOf 1 3 1 2 0 = some stagedChange ∧ changeOf 0 257 0 0xFF 100 =
      some queuedChange ∧ changeOf 255 0 3 0x41 2048 = some ⟨255, 0, 1024, some .pass, some 2048⟩ ∧
    changeOf 1 258 1 2 0 = none ∧ changeOf 1 3 4 2 0 = none ∧ changeOf 1 3 1 2 15 = none ∧
    busy.holders.look (destItem 1) = some 0 ∧ base.holders.look (destItem 30) ≠ some 0 ∧
    namesFreeRecord base stagedChange = true ∧ namesFreeRecord busy stagedChange = false ∧
    timingLane busy 1 = 0 ∧ (busy.takes.look 0).staging.look 0 = [] ++ stagedChange :: [] ∧
    (∀ y ∈ (busy.takes.look 0).staging.look 0, y.dest ≠ 3) ∧
    (busy.takes.look 0).poolCount < 32 := by decide +kernel

/-- Each field of STAGE at the first value out of range, and the other fields at their ends. -/
theorem witness_ranges : 256 ≤ (256 : BitVec 16).toNat ∧ 258 ≤ (258 : BitVec 16).toNat ∧
    4 ≤ (4 : Byte).toNat ∧ (0x42 ≤ (0x42 : Byte).toNat ∧ (0x42 : Byte) ≠ 0xFF) ∧
    (0xFE : Byte) ≠ 0xFF ∧ ((15 : BitVec 16) ≠ 0 ∧ (15 : BitVec 16).toNat < 16) ∧
    2048 < (2049 : BitVec 16).toNat ∧ 8 ≤ (8 : Byte).toNat ∧ 250 < (251 : Byte).toNat ∧
    64 ≤ (64 : Byte).toNat ∧ (busy.takes.look 0).queue.length ≤ (1 : Byte).toNat ∧
    (1 : Byte).toNat < 8 := by decide +kernel

/-- R175: fields in range at their ends, and the change they spell. -/
theorem witness_changeFields :
    (255 : BitVec 16).toNat < 256 ∧ (257 : BitVec 16).toNat < 258 ∧ (3 : Byte).toNat < 4 ∧
    (0x41 : Byte).toNat < 0x42 ∧ 16 ≤ (16 : BitVec 16).toNat ∧ (2048 : BitVec 16).toNat ≤ 2048 ∧
    changeOf 255 257 3 0x41 2048 = some ⟨255, 257, 1024, some .pass, some 2048⟩ ∧
    changeOf 0 0 2 0x40 16 = some ⟨0, 0, 256, some .none, some 16⟩ ∧
    changeOf 0 0 1 63 0 = some ⟨0, 0, 64, some (.record 63), none⟩ ∧
    changeOf 0 0 0 0xFF 0 = some ⟨0, 0, 0, none, none⟩ ∧ changeOf 256 0 0 0xFF 0 = none ∧
    changeOf 0 0 0 0x42 0 = none ∧ changeOf 0 0 0 0xFE 0 = none := by decide +kernel

/-- Seven and eight staged changes, for destinations 3 on. -/
def staged (n : Nat) : State :=
  modTake 0 (fun t => { t with
    staging := t.staging.put 0
      ((List.range n).map fun i => ⟨Fin.ofNat 256 (i + 3), 257, 0, none, none⟩) }) busy

theorem witness_stageLimits :
    ((staged 7).takes.look 0).staging.look 0 ≠ [] ∧
    (((staged 7).takes.look 0).staging.look 0).length < 8 ∧
    8 ≤ (((staged 8).takes.look 0).staging.look 0).length ∧
    (∀ y ∈ ((staged 8).takes.look 0).staging.look 0, y.dest ≠ 1) := by decide +kernel

/-- R115, R116: the eighth change is taken and the ninth refused with FULL. -/
theorem test_stage : ∃ t u, exec (.stage 0 0 1 3 1 2 0) (staged 7) = .next t ∧
      ((waiting t 0).map (·.payload)) = some [8, 9] ∧ (t.tags.look 2).count = 2 ∧
      exec (.stage 0 0 1 3 1 2 0) (staged 8) = .next u ∧
      ((waiting u 0).map (·.result)) = some .full :=
  ⟨_, _, rfl, by decide +kernel, by decide +kernel, rfl, by decide +kernel⟩

theorem witness_unstageClose : (1 : BitVec 16).toNat = (1 : DestId).val ∧
    (busy.takes.look 0).staging.look 0 = [] ++ stagedChange :: [] ∧ stagedChange.dest = 1 ∧
    (∀ z ∈ (busy.takes.look (timingLane busy 5)).staging.look 0, z.dest ≠ 5) ∧
    laneField 0 = some 0 ∧ (250 : Byte).toNat ≤ 250 ∧ (busy.takes.look 0).staging.look 0 ≠ [] ∧
    (busy.takes.look 0).queue.length < 8 ∧ (busy.takes.look 0).staging.look 1 = [] ∧
    8 ≤ (List.replicate 8 (⟨0, 0, 0, []⟩ : Batch)).length := by decide +kernel

/-- R119, R118: CLOSE answers closure number and position; UNSTAGE answers the changes left. -/
theorem test_close_unstage : ∃ t u, exec (.close 0 0 0 250) busy = .next t ∧
      ((waiting t 0).map (·.payload)) = some [1, 1] ∧ (t.takes.look 0).closureCounter = 2 ∧
      exec (.unstage 0 0 1) busy = .next u ∧ ((waiting u 0).map (·.payload)) = some [0] ∧
      (u.tags.look 2).count = 0 :=
  ⟨_, _, rfl, by decide +kernel, by decide +kernel, rfl, by decide +kernel, by decide +kernel⟩

theorem witness_holdCancel : Takes busy 0 ∧ Takes base 2 ∧ (base.takes.look 0).queue = [] ∧
    (busy.takes.look 0).queue = ⟨0, 0, 3, [queuedChange]⟩ :: [] ∧ busy.senior = some 0 ∧
    (0 : CpId) ≠ 2 ∧ { busy with senior := none }.senior ≠ some 2 ∧
    (busy.takes.look 0).queue[(0 : Byte).toNat]? = some ⟨0, 0, 3, [queuedChange]⟩ ∧
    (0 : Byte) ≠ 1 := by decide +kernel

/-- R124, R126: HOLD answers both reasons; CANCEL of the head leaves the timer IDLE. -/
theorem test_hold_cancel : ∃ t u, exec (.hold 0 0 0) busy = .next t ∧
      ((waiting t 0).map (·.payload)) = some [3] ∧
      exec (.cancel 0 0 0 0 0) busy = .next u ∧ (u.takes.look 0).timer = .idle ∧
      ((waiting u 0).map (·.payload)) = some [1] :=
  ⟨_, _, rfl, by decide +kernel, rfl, by decide +kernel, by decide +kernel⟩

/-- A head batch ready at its switch point. -/
def ready : State :=
  { busy with
    takes := busy.takes.put 0 readyTake
    lanes := busy.lanes.put 0 { runLane with pendingPlan := some ⟨1, 2⟩ }
    now := 960 }

/-- The same with a batch of no delay behind the head, and its queue after the head's CANCEL. -/
def cancelling : State :=
  modTake 0 (fun t => { t with queue := t.queue ++ [⟨0, 1, 0, [queuedChange]⟩] }) ready

theorem witness_cancelMet : takeDue cancelling 0 = true ∧ Takes cancelling 0 ∧
    (cancelling.takes.look 0).queue[(0 : Byte).toNat]? = some ⟨0, 0, 3, [queuedChange]⟩ := by
  decide +kernel

/-- R123: after the CANCEL no batch is applied at this switch point, and the new head stands. -/
theorem test_cancelMet : ∃ t, exec (.cancel 0 0 0 0 0) cancelling = .next t ∧
    takeDue t 0 = false ∧ ((switchPoint 0 t).takes.look 0).queue.length = 1 ∧
    ((switchPoint 0 t).takes.look 0).timer = .counting 0 ∧
    ((switchPoint 0 t).takes.look 0).freshHead = false := ⟨_, rfl, by decide +kernel⟩

/-- Log 39: a second CANCEL at the same switch point brings a head of no delay, and it is applied there. -/
theorem test_cancelTwice : ∃ t u,
    exec (.cancel 0 0 0 0 0) (modTake 0 (fun t => { t with
      queue := t.queue.take 1 ++ [⟨0, 7, 3, [queuedChange]⟩] ++ t.queue.drop 1 }) cancelling) = .next t ∧
    takeDue t 0 = false ∧ (t.takes.look 0).freshHead = false ∧
    exec (.cancel 0 0 0 0 7) t = .next u ∧ takeDue u 0 = true :=
  ⟨_, _, rfl, by decide +kernel, by decide +kernel, rfl, by decide +kernel⟩

/-- R121: a late frame start takes the switch point away, and the head that waited past it is applied at the
first one that falls. -/
theorem test_cancelLate : ∃ t, exec (.cancel 0 0 0 0 0) { cancelling with now := 17281 } = .next t ∧
    (t.takes.look 0).freshHead = true ∧ ((lateFrameStart 0 t).takes.look 0).freshHead = false ∧
    takeDue { lateFrameStart 0 t with now := 17281 + 960 } 0 = true := ⟨_, rfl, by decide +kernel⟩

theorem witness_take : takeDue ready 0 = true ∧
    (ready.takes.look 0).queue = ⟨0, 0, 3, [queuedChange]⟩ :: [] ∧
    ([queuedChange].map (·.dest)).Nodup := by decide +kernel

/-- R122: the change is applied: D0 has the silence source at a delay of 100, and CP0 gets APPLIED. -/
theorem test_take : ((take 0 ready).entries.look 0).source = 257 ∧
    ((take 0 ready).entries.look 0).delay = 100 ∧ ((take 0 ready).takes.look 0).timer = .idle ∧
    noticeSet (take 0 ready) 0 .applied = true ∧
    ((take 0 ready).takes.look 0).staging.look 0 = [stagedChange] := by decide +kernel

/-- R82 to R86, R140: TAKE leaves the entry that the application leaves: a fade from the old source, the reference
of the change and its count, which the change gives up. -/
theorem test_takeFades :
    let s := modTake 0 (fun t => { t with
      staging := Table.fill 3 [], queue := [⟨0, 0, 3, [stagedChange]⟩] }) ready
    ((take 0 s).entries.look 1).fade = some ⟨.silence, 0, 64, 0⟩ ∧
      ((take 0 s).entries.look 1).readIndex = ((applyChange stagedChange s).entries.look 1).readIndex ∧
      ((take 0 s).entries.look 1).counted = .record 2 ∧ ((take 0 s).tags.look 2).count = 1 := by
  decide +kernel

/-- A record of the kind CODED. -/
def codedTag : State :=
  modTag 2 (fun r => { r with content := some ⟨2, [], Table.fill 8 0, none⟩ }) busy

/-- A change that keeps the source, and one that changes it with a fade and names a record. -/
theorem witness_applied :
    ((applyChange queuedChange busy).entries.look 0).src = (busy.entries.look 0).src ∧
    ((applyChange stagedChange busy).entries.look 1).src ≠ (busy.entries.look 1).src ∧
    stagedChange.fade ≠ 0 ∧ queuedChange.fade = 0 ∧ stagedChange.tag = some (.record 2) ∧
    queuedChange.delay.isSome = true ∧ stagedChange.delay = none := by decide +kernel

/-- That change is CODED after where T2 is, and neither before nor after where T2 is SOUND. -/
theorem witness_coded :
    CodedInForce codedTag ((applyChange stagedChange codedTag).entries.look 1).src
      ((applyChange stagedChange codedTag).entries.look 1).counted ∧
    ¬ CodedInForce busy (busy.entries.look 1).src (busy.entries.look 1).tagUsed ∧
    ¬ CodedInForce busy ((applyChange stagedChange busy).entries.look 1).src
      ((applyChange stagedChange busy).entries.look 1).counted := by
  have a : (busy.entries.look 1).tagUsed = .none := by decide +kernel
  have b : ((applyChange stagedChange busy).entries.look 1).counted = .record 2 := by decide +kernel
  have c : (busy.tags.look 2).content = some ⟨1, [0x41], Table.fill 8 0, some 0⟩ := by decide +kernel
  refine ⟨.inl ⟨2, _, by decide +kernel, rfl, rfl⟩, ?_, ?_⟩
  · rintro (⟨n, x, h, _⟩ | ⟨l, k, y, h, _⟩) <;> rw [a] at h <;> cases h
  · rintro (⟨n, x, h, hx, hk⟩ | ⟨l, k, y, h, _⟩)
    · rw [b] at h
      cases h
      rw [c] at hx
      cases hx
      exact absurd hk (by decide)
    · rw [b] at h
      cases h

/-- R82: the CODED kind cuts. -/
theorem test_coded : ((applyChange stagedChange codedTag).entries.look 1).fade = none := by
  decide +kernel

/-- D0 with a stored tag code that an upset left, and a change of it that carries no field but the source. -/
def retagged (b : Byte) : State := modEntry 0 (fun e => { e with tag := b }) busy

def bareChange : Change := ⟨0, 3, 0, none, none⟩

/-- A code of each kind that a change without a tag reference can meet: a written record, a free one, NONE, PASS,
and the lowest and the highest that name no reference. -/
theorem witness_storedTags : bareChange.tag = none ∧ bareChange.delay = none ∧
    ((retagged 2).entries.look 0).tag.toNat = (2 : TagId).val ∧
    (busy.tags.look 2).content.isSome = true ∧ (63 : Byte).toNat = (63 : TagId).val ∧
    (busy.tags.look 63).content = none ∧ 0x42 ≤ (0x42 : Byte).toNat ∧ 0x42 ≤ (0xFF : Byte).toNat := by
  decide +kernel

/-- R84 (log 11): the code stays and what it names is counted; a free record becomes NONE. -/
theorem test_storedTags :
    let e (b : Byte) := (applyChange bareChange (retagged b)).entries.look 0
    ((e 2).tag, (e 2).counted) = (2, .record 2) ∧ ((e 63).tag, (e 63).counted) = (0x40, .none) ∧
      ((e 0x40).tag, (e 0x40).counted) = (0x40, .none) ∧
      ((e 0x41).tag, (e 0x41).counted) = (0x41, .pass) ∧
      ((e 0x42).tag, (e 0x42).counted) = (0x42, .none) ∧ (e 0x41).delay = 64 ∧
      ((applyChange bareChange (retagged 2)).tags.look 2).count = 2 ∧
      ((applyChange bareChange (retagged 63)).tags.look 2).count = 1 := by decide +kernel

/-- R82, R83: the fade begins at the old source, and the read index is aligned 64 samples back. -/
theorem test_applied : ((applyChange stagedChange base).entries.look 1).fade =
      some ⟨.silence, 0, 64, 0⟩ ∧
    ((applyChange stagedChange base).entries.look 1).readIndex = 4032 := by decide +kernel

/-- A switch point with a plan pending and a nudge pending, with and without a hold. -/
def switching : State := modTake 0 (fun t => { t with timer := .counting 3 }) ready

theorem witness_switchPoint : switchPointDue switching 0 = true ∧
    (switching.lanes.look 0).pendingPlan = some ⟨1, 2⟩ ∧
    (switching.takes.look 0).held = false ∧ (switching.lanes.look 0).takePending = true ∧
    (switching.takes.look 0).timer = .counting (2 + 1) ∧
    timingLane switching 2 = 0 ∧ (switching.entries.look 2).nudge = some (-15) ∧
    (switching.entries.look 2).src = .ring 3 ∧ timingLane switching 30 ≠ 0 ∧
    ((modTake 0 (fun t => { t with holdCommand := true }) switching).takes.look 0).held = true := by
  decide +kernel

/-- The other take timers that a switch point meets: at count 0 with a head, IDLE, with its work done by TAKE,
and with a head that a CANCEL brought forward; and the changes of the head. -/
theorem witness_switchTimers : switchPointDue ready 0 = true ∧
    (ready.takes.look 0).timer = .counting 0 ∧ (ready.takes.look 0).freshHead = false ∧
    (ready.takes.look 0).queue = ⟨0, 0, 3, [queuedChange]⟩ :: [] ∧
    (ready.takes.look 0).holdCommand = false ∧ (ready.takes.look 0).holdPark = false ∧
    ([queuedChange].map (·.dest)).Nodup ∧ (∀ x ∈ [queuedChange], x.dest ≠ 2) ∧
    switchPointDue (take 0 ready) 0 = true ∧ ((take 0 ready).takes.look 0).timer = .idle ∧
    ((take 0 ready).lanes.look 0).takePending = false ∧
    ((modTake 0 (fun t => { t with freshHead := true }) ready).takes.look 0).freshHead = true := by
  decide +kernel

/-- R120, R122: at count 0 the switch point applies the head batch itself. -/
theorem test_switchTake : ((switchPoint 0 ready).entries.look 0).delay = 100 ∧
    ((switchPoint 0 ready).takes.look 0).queue = [] ∧
    noticeSet (switchPoint 0 ready) 0 .applied = true := by decide +kernel

/-- R76 (log 13): the nudge is applied first, and a change that aligns nothing keeps the index it moved. -/
theorem test_switchNudgeTake :
    let s := modTake 0 (fun t => { t with queue := [⟨0, 0, 3, [⟨2, 3, 0, none, none⟩]⟩] }) ready
    ((switchPoint 0 s).entries.look 2).readIndex = 4015 ∧
      ((switchPoint 0 s).entries.look 2).nudge = none ∧
      ((switchPoint 0 s).entries.look 2).fade = none := by decide +kernel

/-- R23, R76, R120: plan, nudge and count at one switch point; the tone index moves in its 48. -/
theorem test_switchPoint : ((switchPoint 0 switching).lanes.look 0).plan = ⟨1, 2⟩ ∧
    ((switchPoint 0 switching).entries.look 2).readIndex = 4015 ∧
    ((switchPoint 0 switching).entries.look 2).fade = some ⟨.tone, 14, 64, 63⟩ ∧
    ((switchPoint 0 switching).takes.look 0).timer = .counting 2 := by decide +kernel

/-! ## Entries -/

theorem witness_readEntry : (255 : BitVec 16).toNat = (255 : DestId).val ∧
    256 ≤ (256 : BitVec 16).toNat := by decide

theorem witness_nudge :
    (0xF0 : Byte).toInt < -15 ∧ 16 < (17 : Byte).toInt ∧ (0 : Byte).toInt = 0 ∧
    -15 ≤ (0xF1 : Byte).toInt ∧ (16 : Byte).toInt ≤ 16 ∧
    base.holders.look (destItem 30) ≠ some 0 ∧ base.holders.look (destItem 1) = some 0 ∧
    (busy.entries.look 2).nudge.isSome = true ∧ (base.entries.look 1).nudge = none ∧
    base.senior = some 0 := by decide +kernel

/-- R75, R91: a destination above 255 is refused first. -/
theorem test_nudge_range : 256 ≤ (256 : BitVec 16).toNat ∧
    ∃ t u, exec (.nudge 1 0 256 0) base = .next t ∧ ((waiting t 1).map (·.result)) = some .badArg ∧
      exec (.checkTest 1 0 256) base = .next u ∧ ((waiting u 1).map (·.result)) = some .badArg :=
  ⟨by decide, _, _, rfl, by decide +kernel, rfl, by decide +kernel⟩

/-- R75: a nudge of −15 is held until the switch point. -/
theorem test_nudge : ∃ t, exec (.nudge 0 0 1 0xF1) base = .next t ∧
    (t.entries.look 1).nudge = some (-15) := ⟨_, rfl, by decide +kernel⟩

/-- An entry after CHECK TEST, at the scrub position. -/
def spoiled : State :=
  modEntry 0 (fun e => { e with code := Config.checkCode e.source e.tag e.delay + 1 }) base

theorem spoiled_entry : (spoiled.entries.look 0).matches = false := by
  have h : (spoiled.entries.look 0).matches =
      (Config.checkCode 257 tagCodeNone 64 + 1 == Config.checkCode 257 tagCodeNone 64) := rfl
  rw [h]
  simp

theorem witness_scrub : scrubDue spoiled = true ∧ (spoiled.entries.look spoiled.scrubPos).health = .good ∧
    (spoiled.entries.look spoiled.scrubPos).matches = false ∧ flagSet spoiled .entryCheck = false ∧
    (spoiled.ports.look 2).faultMask.getLsbD FaultGroup.patch.bit = true :=
  ⟨by decide +kernel, by decide +kernel, spoiled_entry, by decide +kernel, by decide +kernel⟩

/-- The other visit: a GOOD entry that matches. -/
theorem witness_scrub_good : (base.entries.look base.scrubPos).matches = true := by
  have h : (base.entries.look base.scrubPos).matches =
      (Config.checkCode 257 tagCodeNone 64 == Config.checkCode 257 tagCodeNone 64) := rfl
  rw [h]
  simp

theorem witness_fadeEnd :
    ((modEntry 2 (fun e => { e with fade := some ⟨.tone, 0, 64, 64⟩ }) base).entries.look 2).fade =
      some ⟨.tone, 0, 64, 64⟩ ∧
    (busy.entries.look 2).fade = some ⟨.tone, 47, 64, 63⟩ ∧ busy.phase = .running ∧
    State.reset.phase ≠ .running := by decide +kernel

/-- R92, R163: an upset during the load changes nothing. -/
theorem test_upsetLoad : ((entryUpset 192 (.source 200) State.reset).entries.look 192).source = 257 := by
  decide +kernel

/-- R79: an upset of the source leaves the other fields. -/
theorem test_upset : ((entryUpset 2 (.source 300) busy).entries.look 2).source = 300 ∧
    ((entryUpset 2 (.source 300) busy).entries.look 2).src = .silence ∧
    ((entryUpset 2 (.source 300) busy).entries.look 2).delay = 64 := by decide +kernel

/-! ## Audio ports and the sample path -/

theorem witness_readPort : (3 : Byte).toNat = (3 : SapId).val ∧ 4 ≤ (4 : Byte).toNat ∧
    (∀ k, base.writeIndex.look (sapRing 3 k) = 0) := by decide +kernel

theorem witness_settings : Takes base 0 ∧ base.senior = some 0 ∧ (0xE2 : Byte).toInt = -30 ∧
    (0xF6 : Byte).toInt = -10 ∧ (0xE1 : Byte).toInt < -30 ∧ -10 < (0xF7 : Byte).toInt ∧
    (63 : Byte).toNat < 64 ∧ 64 ≤ (64 : Byte).toNat ∧ (1 : Byte).toNat < 2 ∧ 2 ≤ (2 : Byte).toNat ∧
    (3 : Byte).toNat = (3 : SapId).val ∧ (7 : Byte).toNat = (7 : LaneId).val ∧
    4 ≤ (4 : Byte).toNat ∧ 8 ≤ (8 : Byte).toNat := by decide +kernel

/-- No change waits for SAP0 in one state, and one waits in the other. -/
theorem witness_portRef :
    (∀ k, ∀ x ∈ (busy.takes.look k).allChanges, sapOf x.dest ≠ some 0) ∧
    (⟨192, 257, 0, none, none⟩ : Change) ∈
      ((modTake 5 (fun t => { t with
        staging := t.staging.put 0 [⟨192, 257, 0, none, none⟩] }) base).takes.look 5).allChanges ∧
    sapOf 192 = some 0 := by decide +kernel

/-- R61, R66: the settings are written, and a waiting change refuses SET PORT REF with QUEUED. -/
theorem test_settings : ∃ t u, exec (.setTone 0 0 0xE2) base = .next t ∧ t.toneLevel = -30 ∧
    exec (.setPortRef 0 0 0 7) (modTake 5 (fun t => { t with
        staging := t.staging.put 0 [⟨192, 257, 0, none, none⟩] }) base) = .next u ∧
      ((waiting u 0).map (·.result)) = some .queued :=
  ⟨_, _, rfl, by decide +kernel, rfl, by decide +kernel⟩

/-- SAP2 in a frame, with its write indices at the end of their rings. -/
def sounding : State :=
  { modSap 2 (fun q => { q with frameOpen := true }) base with
    writeIndex := Table.gen fun r => if 224 ≤ r.val then 4095 else 0 }

theorem witness_wordClock : awake sounding = true ∧ (sounding.saps.look 2).present = true ∧
    (sounding.saps.look 2).frameOpen = true ∧ (base.saps.look 2).frameOpen = false ∧
    SampleStore.wf sounding.mem ∧
    (∀ p k, sounding.writeIndex.look (sapRing p k) = sounding.writeIndex.look (sapRing p 0)) := by
  decide +kernel

/-- R59, R63: slot 0 is written at position 4095 of S224, whose write index wraps to 0. -/
theorem test_writeSample : (writeSample 224 5 sounding).writeIndex.look 224 = 0 ∧
    (writeSample 224 5 sounding).mem = [(224 * 4096 + 4095, 5)] ∧
    (writeSample 224 0 sounding).mem = [] := by decide +kernel

/-- SAP1 LOST with a period of its timer due, and about to regain. -/
def regaining : State :=
  { modSap 1 (fun q => { q with present := false, regain := 7, clockAt := 84, timerAt := 100 }) base with
    now := 100 }

theorem witness_clockLoss : clockLossDue { base with now := 64 } 1 = true ∧
    clockLossDue { base with now := 63 } 1 = false ∧ timerPeriodDue regaining 1 = true := by
  decide +kernel

theorem witness_regain : awake regaining = true ∧ (regaining.saps.look 1).present = false ∧
    (regaining.saps.look 1).regainAfter 100 = 8 ∧ (regaining.saps.look 1).regainAfter 97 = 1 ∧
    (regaining.saps.look 1).regainAfter 98 = 8 ∧ (regaining.saps.look 1).regainAfter 103 = 1 := by
  decide +kernel

/-- R64, R65: the loss and the regain of a word clock. -/
theorem test_clock : ((portClockLost 1 { base with now := 64 }).saps.look 1).timerAt = 64 ∧
    flagSet (portClockLost 1 { base with now := 64 }) (.portClockLost 1) = true ∧
    ((portRegain 1 regaining).saps.look 1).present = true ∧
    ((portRegain 1 regaining).writeIndex.look 208) = 0 := by decide +kernel

/-- Entries of each kind that a read meets. -/
theorem witness_read : (busy.entries.look 2).health = .good ∧
    (busy.entries.look 2).fade = some ⟨.tone, 47, 64, 63⟩ ∧ (busy.entries.look 2).src = .ring 3 ∧
    ringIdle busy 3 = true ∧ (busy.entries.look 1).fade = none ∧
    ((modEntry 1 Entry.suspected busy).entries.look 1).health = .suspect ∧ 0 < 1 := by decide +kernel

/-- R69, R71, R74: a read of an idle lane source yields the mix of the tone and 0, places the index at the
delay target, and ends the fade; an index 8 samples behind stays, and one 7 behind slips. -/
theorem test_read : ((readDest 2 busy).2.entries.look 2).fade = none ∧
    ((readDest 2 busy).2.entries.look 2).readIndex = 4032 ∧
    slips busy (.ring 3) 4088 = false ∧ slips busy (.ring 3) 4089 = true ∧
    slips busy (.ring 3) 96 = false ∧ slips busy (.ring 3) 95 = true := by decide +kernel

/-- An entry on a port source, 9 samples behind, that the next read leaves 8 behind, and one that slips. -/
def drifting (i : RingPos) : State :=
  modEntry 5 (fun e => { e with source := 200, readIndex := i }) base

theorem witness_slip : ((drifting 4087).entries.look 5).src = .ring 200 ∧
    ringIdle (drifting 4087) 200 = false ∧
    ((drifting 4087).writeIndex.look 200 - (4087 + 1)).toNat = 8 ∧
    ((drifting 4088).writeIndex.look 200 - (4088 + 1)).toNat < 8 := by decide +kernel

/-- R71: SLIP of the timing lane is set by the read that slips, and the index goes to the delay target. -/
theorem test_slip : flagSet (readDest 5 (drifting 4087)).2 (.slip 0) = false ∧
    flagSet (readDest 5 (drifting 4088)).2 (.slip 0) = true ∧
    ((readDest 5 (drifting 4088)).2.entries.look 5).readIndex = 4032 := by decide +kernel

/-- R152: the ports whose masks enable AUDIO receive FAULT, once; nothing else of a port changes. -/
theorem test_slipTells :
    let s := modPort 1 (fun p => { p with faultMask := 0x3B }) (drifting 4088)
    let t := (readDest 5 s).2
    t.ports.look 0 = (s.ports.look 0).notify .fault ∧ t.ports.look 1 = s.ports.look 1 ∧
      (readDest 5 (setFlag (.slip 0) (modPort 0 (fun p => { p with faultMask := 0 }) s))).2.ports.look 2 =
        (s.ports.look 2).notify .fault := by decide +kernel

/-! ## Lanes and their frames -/

/-- An FB50 frame of exactly its period, the ends of its range, and a frame of no class. -/
theorem witness_detector : frameMatches .fb50 15360 740 = true ∧ frameMatches .fb50 14400 740 = true ∧
    frameMatches .fb50 16320 740 = true ∧ frameMatches .fb50 16321 740 = false ∧
    (∀ c ∈ [FormatClass.fa24, .fa25, .fa30, .fb60, .fc25], frameMatches c 15360 740 = false) ∧
    (∀ c ∈ [FormatClass.fa24, .fa25, .fa30, .fb50, .fb60, .fc25], frameMatches c 0 740 = false) := by
  decide +kernel

/-- Frames that FA24 and FA25 both take: the two periods, and one between them. -/
theorem witness_overlap : ∀ len ∈ [30000, 30720, 31000, 32000, 32640],
    frameMatches .fa24 len 1100 = true ∧ frameMatches .fa25 len 1100 = true ∧
    (∀ c ∈ [FormatClass.fa30, .fb50, .fb60, .fc25], frameMatches c len 1100 = false) := by
  decide +kernel

/-- R4: each period names its own class to a detector that holds neither (log 6). -/
theorem test_overlap : Detector.unlocked.judge 32000 1100 = (.candidate .fa24, false) ∧
    Detector.unlocked.judge 30720 1100 = (.candidate .fa25, false) ∧
    (Detector.locked .fb50).judge 30720 1100 = (.candidate .fa25, true) ∧
    (Detector.locked .fa24).judge 30720 1100 = (.locked .fa24, false) := by decide +kernel

/-- R4: two frames of one class lock a detector. -/
theorem test_detector : Detector.unlocked.judge 15360 740 = (.candidate .fb50, false) ∧
    (Detector.candidate .fb50).judge 15360 740 = (.locked .fb50, false) ∧
    (Detector.locked .fb50).judge 15360 739 = (.unlocked, true) ∧
    (Detector.locked .fb50).judge 12800 740 = (.candidate .fb60, true) := by decide +kernel

/-- L0 in RUN at the end of a whole frame, of a frame in which half a period has not passed, and of one
that matches nothing. -/
def atInput (n : Lane) (now : Nat) : State := { withLane 0 n base with now := now }

theorem witness_inputFrameStart : awake (atInput runLane 15360) = true ∧
    (runLane.judged 15360) = (.locked .fb50, false) ∧ (runLane.judged 7679) = (.unlocked, true) ∧
    opensFrame (atInput runLane 15360) 0 = true ∧ opensFrame (atInput runLane 7680) 0 = true ∧
    opensFrame (atInput runLane 7679) 0 = false ∧ runLane.coastLimit ≠ 0 ∧
    ({ runLane with inputLines := 0 } : Lane).judged 15360 = (.unlocked, true) ∧
    ({ runLane with inputAt := none } : Lane).judged 15360 = (.locked .fb50, false) ∧
    base.phase = .running ∧ base.holders.look (laneItem 0) = some 0 := by decide +kernel

/-- The lane states in which an input frame start finds a lock. -/
theorem witness_inputLock : ∀ x ∈ [LaneState.seek, .coast],
    (({ runLane with state := x } : Lane).judged 15360).1 = .locked .fb50 ∧
    (({ runLane with state := x, expected := some .fa25 } : Lane).judged 15360).1 = .locked .fb50 ∧
    (({ runLane with state := x, inputLines := 0 } : Lane).judged 15360).1 = .unlocked := by
  decide +kernel

/-- R7, R10, R11, R13: what the input frame start makes of each. -/
theorem test_inputFrameStart :
    ((inputFrameStart 0 (atInput { runLane with state := .seek, expected := none }
      15360)).lanes.look 0).state = .run ∧
    ((inputFrameStart 0 (atInput { runLane with state := .coast, expected := some .fa25 }
      15360)).lanes.look 0).parkCause = some .format ∧
    ((inputFrameStart 0 (atInput runLane 7679)).lanes.look 0).state = .coast ∧
    ((inputFrameStart 0 (atInput { runLane with coastLimit := 0 } 7679)).lanes.look 0).state =
      .parked := by decide +kernel

theorem witness_late : awake (atInput runLane 17281) = true ∧ runLane.inputAt = some 0 ∧
    0 + 16 * FormatClass.fb50.samples + 2 * FormatClass.fb50.samples < 17281 ∧
    ¬ 0 + 16 * FormatClass.fb50.samples + 2 * FormatClass.fb50.samples < 17280 ∧
    runLane.detector = .locked .fb50 ∧ runLane.state = .run ∧
    ({ runLane with state := .seek } : Lane).state ≠ .run ∧
    ({ runLane with detector := .candidate .fb50 } : Lane).detector = .candidate .fb50 := by
  decide +kernel

/-- The busy lane in FLUSH mode, with an entry to PARKED to come: at the coast limit 0, from COAST at its limit,
and with a lock of another class. -/
def flushing (x : LaneState) (limit : Nat) (e : FormatClass) (now : Nat) : State :=
  { withLane 0 { runLane with
      state := x, parkMode := .flush, coastLimit := limit, expected := some e } busy with
    takes := busy.takes.put 0 readyTake, now := now }

/-- R14, R129: FLUSH acts at each entry to PARKED, whatever the cause. -/
theorem test_flushEntries :
    ∀ t ∈ [inputFrameStart 0 (flushing .coast 25 .fa25 15360),
        inputFrameStart 0 (flushing .run 0 .fb50 7679), lateFrameStart 0 (flushing .run 0 .fb50 17281),
        timedFrameStart 0 (flushing .coast 1 .fb50 15360), coastExpiry 0 (flushing .coast 1 .fb50 15360)],
      (t.lanes.look 0).state = .parked ∧ (t.takes.look 0).allChanges = [] ∧
      (t.takes.look 0).holdPark = true ∧ (t.takes.look 0).timer = .idle ∧ (t.tags.look 2).count = 0 ∧
      noticeSet t 0 .cancelled = true ∧ noticeSet t 1 .cancelled = false := by decide +kernel

/-- R12: a departure to COAST leaves the queue, and so does an entry to PARKED in HOLD. -/
theorem test_queueStays :
    (lateFrameStart 0 (flushing .run 25 .fb50 17281)).takes.look 0 = readyTake ∧
    (coastExpiry 0 (modLane 0 (fun n => { n with parkMode := .hold })
      (flushing .coast 1 .fb50 15360))).takes.look 0 = { readyTake with holdPark := true } := by
  decide +kernel

/-- R19, R129, R152: what each of these departures tells the ports: CP0, which holds L0 and the batches, LANE and
CANCELLED; CP1 and CP2 FAULT alone, where a flag is newly set. -/
theorem test_laneTold :
    ((inputFrameStart 0 (flushing .coast 25 .fa25 15360)).ports.look 0).notices = 0x38 ∧
    ((inputFrameStart 0 (flushing .coast 25 .fa25 15360)).ports.look 1).notices = 0x20 ∧
    ((lateFrameStart 0 (flushing .run 25 .fb50 17281)).ports.look 0).notices = 0x30 ∧
    (coastExpiry 0 (flushing .coast 1 .fb50 15360)).ports.look 2 = busy.ports.look 2 ∧
    ((timedFrameStart 0 (flushing .coast 1 .fb50 15360)).ports.look 0).notices = 0x18 ∧
    (inputFrameStart 0 (atInput runLane 15360)).ports = base.ports := by decide +kernel

/-- A lane in SEEK in a 40 ms free run whose detector is about to lock to FB60. -/
def freeRun : State :=
  atInput { laneAtReset 0 with
    state := .seek, detector := .candidate .fb60, inputAt := some 1000, inputLines := 740 } 13800

/-- R7 (log 45): an entry to RUN 1800 ticks into a 40 ms frame: the frame takes in a second FB60 frame. After an
entry later in the frame the next input frame start opens one. -/
theorem test_twoInputs :
    let s := inputFrameStart 0 freeRun
    let again (now : Nat) (s : State) :=
      inputFrameStart 0 { modLane 0 (fun n => { n with inputLines := 740 }) s with now := now }
    (s.lanes.look 0).state = .run ∧ (s.lanes.look 0).frameStartAt = 0 ∧
      opensFrame freeRun 0 = false ∧
      ((again 26600 s).lanes.look 0).frameStartAt = 26600 ∧
      (let u := inputFrameStart 0 { freeRun with
          lanes := freeRun.lanes.put 0 { freeRun.lanes.look 0 with frameStartAt := 12000 } }
       ((again 26600 u).lanes.look 0).frameStartAt = 12000 ∧
       ((again 26600 u).readers.look 0).parsing = true) := by decide +kernel

/-- R5: at the tick after one eighth of a period lock is lost, and not before. -/
theorem test_late :
    ((lateFrameStart 0 (atInput runLane 17281)).lanes.look 0).state = .coast ∧
    ((lateFrameStart 0 (atInput runLane 17280)).lanes.look 0).state = .run ∧
    ((candidateLapse 0 (atInput { runLane with detector := .candidate .fb50 }
      17281)).lanes.look 0).detector = .unlocked := by decide +kernel

theorem witness_frameStart : ∀ x ∈ [LaneState.off, .seek, .coast, .parked],
    frameDue (atInput { runLane with state := x } 15360) 0 = true ∧
    frameDue (atInput { runLane with state := x } 15359) 0 = false := by decide +kernel

/-- Coasts at and below the limit, and relock events. -/
theorem witness_frameStates :
    ({ runLane with coastCount := 23 } : Lane).coastCount + 1 < runLane.coastLimit ∧
    runLane.coastLimit ≤ ({ runLane with coastCount := 24 } : Lane).coastCount + 1 ∧
    runLane.lockedExpected = true ∧ runLane.resumeArmed = false ∧ runLane.parkMode ≠ .latch ∧
    ({ runLane with detector := .unlocked } : Lane).lockedExpected = false ∧
    ({ runLane with resumeArmed := true } : Lane).resumeArmed = true := by decide +kernel

/-- R13, R15: what the lane's own work at a frame start makes of each. -/
theorem test_laneWork :
    ((laneWork 0 (atInput { runLane with state := .coast, coastCount := 24 } 0)).lanes.look 0).state =
      .parked ∧
    ((laneWork 0 (atInput { runLane with state := .coast, coastCount := 23 } 0)).lanes.look
      0).coastCount = 24 ∧
    ((laneWork 0 (atInput { runLane with state := .parked } 0)).lanes.look 0).relockSeen = true ∧
    ((laneWork 0 (atInput { runLane with state := .parked, resumeArmed := true } 0)).lanes.look
      0).state = .run := by decide +kernel

/-- R31: the padding of a frame that received 3 of 960 sets. -/
theorem test_settle :
    (settleTrack 0 4 (modReader 0 (Reader.modGroup 1 fun q => { q with setCount := 3 })
      (withLane 0 runLane base))).writeIndex.look 4 = 957 := by decide +kernel

/-! ## Sound cells -/

theorem witness_emitted : ([] : List SampleSet).length ≤ 4 ∧
    (List.replicate 4 (⟨1, 2, 3⟩ : SampleSet)).length ≤ 4 ∧ 619 < FormatClass.fc25.cellLines ∧
    0 < FormatClass.fa24.cellLines ∧ 31 = (31 : Fin 32).val ∧ 32 ≤ 32 := by decide

/-- R51: the reader takes back a cell of four sets, whatever follows. -/
theorem test_cell_roundtrip :
    scanCell (cellWords 5 false [⟨1, 2, 3⟩, ⟨-1, 0, 8⟩, ⟨7, 7, 7⟩, ⟨0, 0, 1⟩] (Table.fill 3 9) ++ [5]) =
      .valid ⟨5, false, [⟨1, 2, 3⟩, ⟨-1, 0, 8⟩, ⟨7, 7, 7⟩, ⟨0, 0, 1⟩], Table.fill 3 9,
        cellWords 5 false [⟨1, 2, 3⟩, ⟨-1, 0, 8⟩, ⟨7, 7, 7⟩, ⟨0, 0, 1⟩] (Table.fill 3 9)⟩ := by
  decide +kernel

/-- L0 in RUN with its reader parsing, and with the first track of group 1 at 31 bytes. -/
def parsing : State :=
  { withLane 0 { runLane with plan := ⟨0x7F, 0x80⟩ } base with
    readers := base.readers.put 0 { readerAtReset with
      parsing := true
      tracks := (Table.fill 24 ⟨[], none⟩).put 3 ⟨List.replicate 31 1, none⟩ } }

/-- The words of a cell of group 1 with one set, and the same with a bad check word. -/
def oneSet : List LaneWord := cellWords 1 false [⟨1, 2, 3⟩] (Table.fill 3 2)

theorem witness_soundCell : cellsParsed parsing 0 = true ∧ SampleStore.wf parsing.mem ∧
    (∀ p k, parsing.writeIndex.look (sapRing p k) = parsing.writeIndex.look (sapRing p 0)) ∧
    scanCell oneSet = .valid ⟨1, false, [⟨1, 2, 3⟩], Table.fill 3 2, oneSet⟩ ∧
    scanCell (oneSet.take 16 ++ [0x3FF]) = .discarded 17 ∧
    scanCell [0x3C3, 0x03C, guarded 1] = .other ∧
    ((parsing.readers.look 0).groups.look 1).setCount + 1 ≤ (parsing.lanes.look 0).frameSamples ∧
    ((modReader 0 (Reader.modGroup 1 fun q => { q with setCount := 960 }) parsing).readers.look
      0).groups.look 1 = ⟨.absent, 0, 960, false⟩ := by decide +kernel

/-- R28: a cell that fails each check in turn, and the words it takes. -/
theorem witness_checks :
    scanCell [0x3C3] = .noPair ∧ scanCell [0x3C3, 0x03C] = .discarded 2 ∧
    scanCell [0x3C3, 0x03C, 0x15A, 0x209] = .discarded 3 ∧
    scanCell [0x3C3, 0x03C, 0x25A] = .discarded 3 ∧
    scanCell [0x3C3, 0x03C, 0x25A, 0x109, 0] = .discarded 4 ∧
    scanCell [0x3C3, 0x03C, 0x25A, guarded 0x80, 0] = .discarded 4 ∧
    scanCell [0x3C3, 0x03C, 0x25A, guarded 0x28, 0] = .discarded 4 ∧
    scanCell (oneSet.take 16) = .discarded 16 ∧
    scanCell (oneSet.take 15 ++ [0x302, cellCheck ((oneSet.drop 2).take 13 ++ [0x302])]) =
      .discarded 17 ∧
    scanCell (oneSet.take 15 ++ [0x102, cellCheck ((oneSet.drop 2).take 13 ++ [0x102])]) =
      scanCell oneSet ∧
    (guarded 0x20).extractLsb' 3 3 = 4 := by decide +kernel

/-- R178: the guard bits of a word, apart from the reader's own check of them. -/
theorem witness_guards : GuardsAgree 0x25A ∧ ¬ GuardsAgree 0x15A ∧ ¬ GuardsAgree 0x35A ∧
    GuardsAgree 0x101 ∧ (0x25A : LaneWord).extractLsb' 0 8 = 0x5A ∧
    (0x101 : LaneWord).extractLsb' 0 8 ≠ 0x5A := by
  unfold GuardsAgree
  decide

/-- A cell of two sets that meets a frame one set short of S, and one set past it. -/
def twoSets : List LaneWord := cellWords 1 false [⟨1, 2, 3⟩, ⟨4, 5, 6⟩] (Table.fill 3 2)

/-- R29: the first set is written, the second dropped with the surplus mark; R27: outside RUN, before the
reader parses and beyond Lc the words change nothing. -/
theorem test_soundCell_ends :
    let near (k : Nat) := modReader 0 (Reader.modGroup 1 fun q => { q with setCount := k }) parsing
    let s := soundCell 0 twoSets (near 959)
    ((s.readers.look 0).groups.look 1).setCount = 960 ∧ (s.readers.look 0).surplus = true ∧
      s.writeIndex.look 4 = 1 ∧ ((soundCell 0 twoSets (near 958)).readers.look 0).surplus = false ∧
      cellsParsed (lane0 .coast none) 0 = false ∧ cellsParsed (lane0 .run none) 0 = false ∧
      cellsParsed (modWriter 0 (fun w => { w with linePos := 740 }) parsing) 0 = false ∧
      cellsParsed (modWriter 0 (fun w => { w with linePos := 739 }) parsing) 0 = true := by
  decide +kernel

/-- R29, R36, R37, R39: the cell is written, counted and handed on as removed, and the 32nd byte completes a
block. -/
theorem test_soundCell :
    let s := soundCell 0 oneSet parsing
    s.writeIndex.look 4 = 1 ∧ s.mem = [(3 * 4096, 1), (4 * 4096, 2), (5 * 4096, 3)] ∧
      ((s.readers.look 0).tracks.look 3).kept.isSome = true ∧
      ((s.readers.look 0).tracks.look 4).assembly = [] ∧
      (s.readers.look 0).handed = [⟨1, false, oneSet⟩] := by decide +kernel

/-- An FB50 lane that emits seven groups in a room of six, and a lane outside RUN. -/
theorem witness_cellLine : awake parsing = true ∧ (parsing.lanes.look 0).state = .run ∧
    (parsing.lanes.look 0).expected = some .fb50 ∧ (parsing.readers.look 0).parsing = true ∧
    (parsing.writers.look 0).linePos < FormatClass.fb50.cellLines ∧
    (planLine .fb50 ⟨0x7F, 0x80⟩ []).leftOut = true ∧ (planLine .fb50 ⟨0x3F, 0⟩ []).leftOut = false ∧
    (parsing.writers.look 0).crowding = .none ∧ (base.lanes.look 0).state ≠ .run ∧
    (base.readers.look 0).parsing = false ∧ (base.lanes.look 0).expected = none ∧
    740 ≤ ((modWriter 0 (fun w => { w with linePos := 740 }) parsing).writers.look 0).linePos ∧
    (resetNLow base).phase = .heldReset := by decide +kernel

/-- R44, R48: outside RUN a line of the cell region leaves as it came and is counted, up to the limit; a line
outside the region is counted nowhere. -/
theorem test_cellLine_carried :
    let s := cellLine 0 ⟨true, [1, 2], [3]⟩ base
    (s.lanes.look 0).output = ⟨true, [1, 2], [3]⟩ ∧ (s.writers.look 0).linePos = 1 ∧
      (s.lanes.look 0).inputLines = 1 ∧
      ((cellLine 0 ⟨false, [4], [5]⟩ s).lanes.look 0).output = ⟨false, [4], [5]⟩ ∧
      ((cellLine 0 ⟨false, [4], [5]⟩ s).writers.look 0).linePos = 1 ∧
      ((cellLine 0 ⟨true, [], []⟩
        (modWriter 0 (fun w => { w with linePos := 740 }) parsing)).writers.look 0).linePos = 740 := by
  decide +kernel

/-- R45, R48: in RUN the blanking begins with the cell of the lowest emitted group; the picture stays. -/
theorem test_cellLine_built :
    let s := cellLine 0 ⟨true, List.replicate 48 7, [3]⟩ (modLane 0 (fun n => { n with plan := ⟨2, 0⟩ }) parsing)
    (s.lanes.look 0).output.blanking.take 4 = [0x3C3, 0x03C, 0x25A, guarded (groupCountByte 1 1 true)] ∧
      (s.lanes.look 0).output.blanking.length = 48 ∧ (s.lanes.look 0).output.blanking.getD 17 0 = 7 ∧
      (s.lanes.look 0).output.picture = [3] ∧ (s.writers.look 0).linePos = 1 ∧
      (s.writers.look 0).groups.look 1 = ⟨1, 1⟩ := by decide +kernel

/-- R46: emitted groups first, then the pass-through groups that fit with all their cells. -/
theorem test_places :
    (planLine .fc25 ⟨0x22, 0⟩
      [⟨4, true, []⟩, ⟨0, true, []⟩, ⟨2, true, []⟩, ⟨2, true, []⟩, ⟨3, false, []⟩]) =
      ⟨[1, 5], [⟨0, true, []⟩, ⟨4, true, []⟩], true⟩ := by decide +kernel

/-- R40, R45: sound cells are taken out of the blanking, and what is left is kept before the fill words. -/
theorem test_layLine :
    otherWords 24 ([7, 8] ++ oneSet ++ [0x3C3, 0x03C, guarded 1, 9]) =
      [7, 8, 0x3C3, 0x03C, guarded 1, 9] ∧ layLine [1, 2] [3] 5 = [1, 2, 3, 0x300, 0x300] := by
  decide +kernel

/-- The example of R179: a SOUND record labelled HOME, emitted from S211 on an FC25 lane. -/
def labelled : State :=
  { withLane 0 { runLane with expected := some .fc25 } base with
    tags := base.tags.put 2 ⟨some ⟨1, [0x48, 0x4F, 0x4D, 0x45], Table.fill 8 0, some 1⟩, 1⟩
    entries := base.entries.put 1 { entryAtReset with source := 211, tag := 2, counted := .record 2 } }

theorem witness_latched : (labelled.entries.look (laneDest 0 1)).tagUsed = .record 2 ∧
    (labelled.tags.look 2).content = some ⟨1, [0x48, 0x4F, 0x4D, 0x45], Table.fill 8 0, some 1⟩ ∧
    [0x48, 0x4F, 0x4D, (0x45 : Byte)].length ≤ 16 ∧
    (labelled.entries.look (laneDest 0 0)).tagUsed = .none := by decide +kernel

/-- A PASS reference to a kept block of a PRESENT group, and to a source that is not valid. -/
def passing : State :=
  { withLane 0 runLane base with
    readers := base.readers.put 0 { readerAtReset with
      groups := (Table.fill 8 groupReadAtReset).put 1 ⟨.present, 0, 0, false⟩
      tracks := (Table.fill 24 ⟨[], none⟩).put 3 ⟨[], some (Table.fill 32 5)⟩ }
    entries := (base.entries.put 1 { entryAtReset with
      source := 3, tag := 0x41, counted := .pass }).put 2 { entryAtReset with
        source := 200, tag := 0x41, counted := .pass } }

theorem witness_passed : (passing.entries.look (laneDest 0 1)).tagUsed = .pass ∧
    (passing.entries.look (laneDest 0 1)).health = .good ∧
    (passing.entries.look (laneDest 0 1)).src = .ring 3 ∧ (3 : RingId) = laneRing 0 3 ∧
    srcValid passing (.ring 3) = true ∧
    ((passing.readers.look 0).tracks.look 3).kept = some (Table.fill 32 5) ∧
    (∀ l k, (passing.entries.look (laneDest 0 2)).src = .ring (laneRing l k) →
      ((passing.readers.look l).tracks.look k).kept = none) ∧
    (passing.entries.look (laneDest 0 2)).tagUsed = .pass := by decide +kernel

/-- R54, R55, R179: the block of the example, with its check 520, and 519 with VALID clear. -/
theorem test_latched :
    (List.finRange 32).map (fun i => (latchBlock labelled 0 1).look i) =
      [1, 4, 0x48, 0x4F, 0x4D, 0x45] ++ List.replicate 12 0 ++ [0, 211, 6, 1] ++
        List.replicate 8 0 ++ [0x02, 0x08] ∧
    ((latchBlock (modSap 1 (fun q => { q with present := false }) labelled) 0 1).look 31) = 0x07 ∧
    (latchBlock passing 0 1).look 31 = 5 ∧ (latchBlock passing 0 2).look 31 = 0 := by decide +kernel

/-! ## Tag records, faults and saves -/

/-- The label HOME in its 16 bytes. -/
def home : Table Byte 16 := Table.gen fun i => [0x48, 0x4F, 0x4D, 0x45].getD i.val 0

theorem witness_tags : Takes labelled 1 ∧ (2 : Byte).toNat = (2 : TagId).val ∧
    labelOf 4 home = [0x48, 0x4F, 0x4D, 0x45] ∧ 3 < (4 : Byte).toNat ∧ 16 < (17 : Byte).toNat ∧
    (∃ x ∈ labelOf 5 home, x.toNat < 0x20 ∨ 0x7E < x.toNat) ∧
    (∀ x ∈ labelOf 4 home, 0x20 ≤ x.toNat ∧ x.toNat ≤ 0x7E) ∧
    (labelled.tags.look 2).author = some 1 ∧ (0 : CpId) ≠ 1 ∧
    (labelled.tags.look 3).author = none ∧ (labelled.tags.look 3).content = none ∧
    (labelled.tags.look 2).count ≠ 0 ∧ labelled.senior ≠ some 1 := by decide +kernel

/-- R135, R138: the author writes, another port is refused, and a named record is IN_USE. -/
theorem test_tags : ∃ t u v, exec (.writeTag 1 0 2 1 4 home (Table.fill 8 7)) labelled = .next t ∧
      ((t.tags.look 2).content.map (·.kind)) = some 1 ∧ ((waiting t 1).map (·.payload)) = some [0, 1] ∧
      exec (.writeTag 0 0 2 1 4 home (Table.fill 8 7)) labelled = .next u ∧
      ((waiting u 0).map (·.result)) = some .notOwner ∧
      exec (.freeTag 1 0 2) labelled = .next v ∧ ((waiting v 1).map (·.result)) = some .inUse :=
  ⟨_, _, _, rfl, by decide +kernel, by decide +kernel, rfl, by decide +kernel, rfl,
    by decide +kernel⟩

theorem witness_faults : (BitVec.twoPow 64 56).extractLsb' 56 8 ≠ 0 ∧
    (BitVec.allOnes 56).zeroExtend 64 = 0x00FFFFFFFFFFFFFF#64 ∧
    (0x00FFFFFFFFFFFFFF#64).extractLsb' 56 8 = 0 ∧
    FaultFlag.crowded 3 ∈ conditionFlags busy ∧ (0x00FFFFFFFFFFFFFF#64).getLsbD 27 = true ∧
    (busy.ports.look 0).faultMask.getLsbD FaultGroup.carriage.bit = true ∧
    busy.firstSuspect = some 7 := by decide +kernel

/-- R159: all flags cleared: the two conditions that hold are set again, and the first suspect goes. -/
theorem test_clearFaults : ∃ t, exec (.clearFaults 0 0 0x00FFFFFFFFFFFFFF#64) busy = .next t ∧
    t.flags = flagMask (.crowded 3) ||| flagMask (.portClockLost 1) ∧ t.firstSuspect = none ∧
    ((waiting t 0).map (·.payload)) = some [0, 0, 0, 8, 0, 2, 0, 0, 0] ∧
    t.ports.look 2 = (busy.ports.look 2).notify .fault :=
  ⟨_, rfl, by decide +kernel⟩

theorem witness_save : Takes busy 0 ∧ busy.saving.isSome = true ∧ base.saving = none ∧
    base.saveGuard = false ∧ { base with saveGuard := true }.saveGuard = true ∧
    base.senior ≠ some 1 ∧ (base.entries.look 5).health = .good ∧
    (busy.ports.look 1).slot = .executing 0x48 9 := by decide +kernel

/-- The save of the busy state at its limit, and a tick past it. -/
theorem witness_saveEnd : busy.saving = some ⟨1, defaultScene, 0⟩ ∧
    { busy with now := 307200 }.now ≤ 0 + 400 * 768 ∧ 0 + 400 * 768 < { busy with now := 307201 }.now ∧
    defaultScene.inRange = true := ⟨rfl, by decide +kernel, by decide +kernel, by decide +kernel⟩

/-- R167: the image is whole and CP1's slot answers OK with OVERRUN; or the save fails. -/
theorem test_save : waiting (saveComplete true busy) 1 = some ⟨0x48, 9, .ok, true, []⟩ ∧
    waiting (saveComplete false busy) 1 = some ⟨0x48, 9, .saveFailed, true, []⟩ ∧
    flagSet (saveComplete false busy) .sceneSaveFail = true ∧
    (saveComplete false busy).ports.look 2 = (busy.ports.look 2).notify .fault ∧
    (saveTimeout { busy with now := 307199 }).saving.isSome = true := by decide +kernel

end Sys2Proof.Tests
end

section
/-! PROOFS. The words of a sound cell (R178): guarded words, the check word, sample sets and the group/count
word, as the reader finds them. -/

namespace Sys2Proof.Machine.SoundCells

/-! ## Guarded words (R178) -/

/-- A running exclusive or over a list is the parity of the count of its ones. -/
theorem foldl_xor_eq_parity {ι : Type} (p : ι → Bool) (l : List ι) (a : Bool) :
    l.foldl (fun q i => q ^^ p i) a = (a ^^ decide (l.countP p % 2 = 1)) := by
  induction l generalizing a with
  | nil => simp
  | cons i l ih =>
    rw [List.foldl_cons, ih, List.countP_cons]
    rcases Nat.mod_two_eq_zero_or_one (l.countP p) with h | h <;> cases p i <;>
      simp [h, Nat.add_mod]

theorem oddOnes_iff (b : Byte) :
    oddOnes b = true ↔ ((List.finRange 8).countP fun i => b.getLsbD i.val) % 2 = 1 := by
  have range : List.range 8 = (List.finRange 8).map Fin.val := by decide
  rw [oddOnes, foldl_xor_eq_parity, range, List.countP_map]
  simp [Function.comp_def]

theorem guarded_getLsbD_low (b : Byte) {i : Nat} (h : i < 8) :
    (guarded b).getLsbD i = b.getLsbD i := by
  rw [guarded, BitVec.getLsbD_append]
  simp [h]

theorem guarded_getLsbD_eight (b : Byte) : (guarded b).getLsbD 8 = oddOnes b := by
  rw [guarded, BitVec.getLsbD_append]
  cases oddOnes b <;> rfl

theorem guarded_getLsbD_nine (b : Byte) : (guarded b).getLsbD 9 = !oddOnes b := by
  rw [guarded, BitVec.getLsbD_append]
  cases oddOnes b <;> rfl

theorem wordValue_getLsbD (w : LaneWord) {i : Nat} (h : i < 8) :
    (wordValue w).getLsbD i = w.getLsbD i := by
  simp [wordValue, h]

@[simp] theorem wordValue_guarded (b : Byte) : wordValue (guarded b) = b := by
  apply BitVec.eq_of_getLsbD_eq
  intro i hi
  rw [wordValue_getLsbD _ hi, guarded_getLsbD_low _ hi]

@[simp] theorem wellFormedWord_guarded (b : Byte) : wellFormedWord (guarded b) = true := by
  simp [wellFormedWord]

/-- A word is the guarded word of its value where its two guard bits are. -/
theorem wellFormedWord_iff_bits (w : LaneWord) :
    wellFormedWord w = true ↔
      w.getLsbD 8 = oddOnes (wordValue w) ∧ w.getLsbD 9 = !oddOnes (wordValue w) := by
  rw [wellFormedWord, beq_iff_eq]
  constructor
  · intro h
    have h8 := guarded_getLsbD_eight (wordValue w)
    have h9 := guarded_getLsbD_nine (wordValue w)
    rw [← h] at h8 h9
    exact ⟨h8, h9⟩
  · rintro ⟨h8, h9⟩
    apply BitVec.eq_of_getLsbD_eq
    intro i hi
    obtain low | rfl | rfl : i < 8 ∨ i = 8 ∨ i = 9 := by omega
    · rw [guarded_getLsbD_low _ low, wordValue_getLsbD _ low]
    · rw [guarded_getLsbD_eight, h8]
    · rw [guarded_getLsbD_nine, h9]

/-- The reader's check of a word is the guard rule of R178. -/
theorem wellFormedWord_iff (w : LaneWord) : wellFormedWord w = true ↔ GuardsAgree w := by
  have parity : oddOnes (wordValue w) = true ↔
      ((List.finRange 8).countP fun i => w.getLsbD i.val) % 2 = 1 := by
    rw [oddOnes_iff, List.countP_congr fun i _ => by rw [wordValue_getLsbD w i.isLt]]
  rw [wellFormedWord_iff_bits, GuardsAgree, ← parity]
  cases w.getLsbD 8 <;> cases oddOnes (wordValue w) <;> simp

/-- The check word is the sum of the words, modulo 1023 (R28). -/
theorem cellCheck_toNat (ws : List LaneWord) :
    (cellCheck ws).toNat = (ws.map fun w => w.toNat).sum % 1023 := by
  have sum : ws.foldl (fun n w => n + w.toNat) 0 = (ws.map fun w => w.toNat).sum := by
    rw [List.sum_eq_foldl, List.foldl_map]
  rw [cellCheck, sum, BitVec.toNat_ofNat]
  omega

/-! ## Sample sets in words (R178) -/

@[simp] theorem sampleOf_bytes (x : Sample) :
    sampleOf (x.extractLsb' 16 8) (x.extractLsb' 8 8) (x.extractLsb' 0 8) = x := by
  apply BitVec.eq_of_getLsbD_eq
  intro i hi
  simp only [sampleOf, BitVec.getLsbD_append, BitVec.getLsbD_extractLsb']
  split
  · simp [*]
  · split
    · rename_i h _
      simp [*, Nat.add_sub_cancel' (Nat.le_of_not_lt h)]
    · rename_i h h'
      have e : 16 + (i - 8 - 8) = i := by omega
      have e' : i - 8 - 8 < 8 := by omega
      simp [e, e']

/-- The nine words of a sample set. -/
def setWords (x : SampleSet) : List LaneWord :=
  sampleWords x.first ++ sampleWords x.second ++ sampleWords x.third

/-- The sample set of the first nine words. -/
def leadingSet (ws : List LaneWord) : SampleSet :=
  let v k := wordValue (ws.getD k 0)
  ⟨sampleOf (v 0) (v 1) (v 2), sampleOf (v 3) (v 4) (v 5), sampleOf (v 6) (v 7) (v 8)⟩

theorem parseSets_succ (n : Nat) (ws : List LaneWord) :
    parseSets (n + 1) ws = leadingSet ws :: parseSets n (ws.drop 9) := rfl

@[simp] theorem parseSets_length (n : Nat) (ws : List LaneWord) : (parseSets n ws).length = n := by
  induction n generalizing ws with
  | zero => rfl
  | succ n ih => simp [parseSets_succ, ih]

/-- Set `i` stands in the nine words from word `9 * i` on. -/
theorem parseSets_getElem? {n i : Nat} (ws : List LaneWord) (h : i < n) :
    (parseSets n ws)[i]? = some (leadingSet (ws.drop (9 * i))) := by
  induction n generalizing ws i with
  | zero => omega
  | succ n ih =>
    cases i with
    | zero => simp [parseSets_succ]
    | succ i =>
      rw [parseSets_succ, List.getElem?_cons_succ, ih _ (by omega), List.drop_drop]
      congr 3
      omega

@[simp] theorem setWords_length (x : SampleSet) : (setWords x).length = 9 := rfl

theorem flatMap_setWords_length (sets : List SampleSet) :
    (sets.flatMap setWords).length = 9 * sets.length := by
  induction sets with
  | nil => rfl
  | cons x sets ih => simp only [List.flatMap_cons, List.length_append, setWords_length, ih,
      List.length_cons]; omega

theorem leadingSet_setWords (x : SampleSet) (rest : List LaneWord) :
    leadingSet (setWords x ++ rest) = x := by
  simp [leadingSet, setWords, sampleWords]

/-- The sets laid out in words are read back. -/
theorem parseSets_flatMap (sets : List SampleSet) (rest : List LaneWord) :
    parseSets sets.length (sets.flatMap setWords ++ rest) = sets := by
  induction sets with
  | nil => rfl
  | cons x sets ih =>
    have tail : (setWords x ++ (sets.flatMap setWords ++ rest)).drop 9 =
        sets.flatMap setWords ++ rest := List.drop_left' rfl
    rw [List.length_cons, parseSets_succ, List.flatMap_cons, List.append_assoc,
      leadingSet_setWords, tail, ih]

theorem wellFormed_setWords (x : SampleSet) : ∀ w ∈ setWords x, wellFormedWord w = true := by
  simp [setWords, sampleWords]

/-! ## The group/count word (R178) -/

/-- Group, set count and flag of a group/count byte of at most four sets; its top bit is 0. -/
theorem groupCountByte_fields : ∀ (g : GroupId) (n : Fin 5) (flag : Bool),
    cellGroup (groupCountByte g n flag) = g ∧ cellSetCount (groupCountByte g n flag) = n ∧
      (groupCountByte g n flag).getLsbD 6 = flag ∧ (groupCountByte g n flag).getLsbD 7 = false := by
  decide

end Sys2Proof.Machine.SoundCells
end

section
/-! PROOFS. What the reader finds at a place of the blanking (R27, R28, R178). -/

namespace Sys2Proof.Machine.SoundCells

/-! ## What stands at a place of the blanking (R27, R28) -/

theorem scanCell_noPair {ws : List LaneWord} (h : ∀ rest, ws ≠ 0x3C3 :: 0x03C :: rest) :
    scanCell ws = .noPair := by
  match ws with
  | [] | [_] => rfl
  | a :: b :: rest =>
    have pair : ¬ (a = leadFirst ∧ b = leadSecond) := by
      rintro ⟨rfl, rfl⟩
      exact h rest rfl
    simp [scanCell, pair]

theorem scanCell_badKind {k : LaneWord} (rest : List LaneWord) (h : ¬ GuardsAgree k) :
    scanCell (0x3C3 :: 0x03C :: k :: rest) = .discarded 3 := by
  have wf : wellFormedWord k = false := by rwa [← Bool.not_eq_true, wellFormedWord_iff]
  simp [scanCell, leadFirst, leadSecond, wf]

theorem scanCell_otherKind {k : LaneWord} (rest : List LaneWord) (h : GuardsAgree k)
    (kind : k.extractLsb' 0 8 ≠ 0x5A) : scanCell (0x3C3 :: 0x03C :: k :: rest) = .other := by
  have wf : wellFormedWord k = true := (wellFormedWord_iff k).mpr h
  have value : wordValue k ≠ soundKind := kind
  simp [scanCell, leadFirst, leadSecond, wf, value]

theorem scanCell_kindAtEnd {k : LaneWord} (h : GuardsAgree k) (kind : k.extractLsb' 0 8 = 0x5A) :
    scanCell [0x3C3, 0x03C, k] = .discarded 3 := by
  have wf : wellFormedWord k = true := (wellFormedWord_iff k).mpr h
  have value : wordValue k = soundKind := kind
  simp [scanCell, leadFirst, leadSecond, wf, value]

theorem scanCell_sound {k : LaneWord} (g : LaneWord) (body : List LaneWord) (h : GuardsAgree k)
    (kind : k.extractLsb' 0 8 = 0x5A) :
    scanCell (0x3C3 :: 0x03C :: k :: g :: body) = scanBody k g body := by
  have wf : wellFormedWord k = true := (wellFormedWord_iff k).mpr h
  have value : wordValue k = soundKind := kind
  simp [scanCell, leadFirst, leadSecond, wf, value]

/-! ## The words after the kind word (R28, R178) -/

/-- The set count of a group/count word. -/
def setCountOf (g : LaneWord) : Nat := (g.extractLsb' 3 3).toNat

/-- A group/count word that R28 discards. -/
def BadHeader (g : LaneWord) : Prop :=
  ¬ GuardsAgree g ∨ g.getLsbD 7 = true ∨ 5 ≤ setCountOf g

/-- The content words of a cell are well formed and its check word is right (R28). -/
def GoodContent (k g : LaneWord) (body : List LaneWord) : Prop :=
  (∀ w ∈ body.take (9 * setCountOf g + 3), GuardsAgree w) ∧
    (body.getD (9 * setCountOf g + 3) 0).toNat =
      ((k :: g :: body.take (9 * setCountOf g + 3)).map fun w => w.toNat).sum % 1023

/-- What the reader takes from a valid cell (R28, R178). -/
def readContent (k g : LaneWord) (body : List LaneWord) : CellContent where
  group := cellGroup (wordValue g)
  frameStart := g.getLsbD 6
  sets := parseSets (setCountOf g) (body.take (9 * setCountOf g + 3))
  tags := Table.gen fun j =>
    wordValue ((body.take (9 * setCountOf g + 3)).getD (9 * setCountOf g + j.val) 0)
  words := leadFirst :: leadSecond :: k :: g :: body.take (9 * setCountOf g + 4)

theorem wordValue_extract (w : LaneWord) {start len : Nat} (h : start + len ≤ 8) :
    (wordValue w).extractLsb' start len = w.extractLsb' start len := by
  apply BitVec.eq_of_getLsbD_eq
  intro i hi
  have low : start + i < 8 := by omega
  simp [BitVec.getLsbD_extractLsb', wordValue, low]

theorem cellSetCount_wordValue (g : LaneWord) : cellSetCount (wordValue g) = setCountOf g := by
  rw [cellSetCount, wordValue_extract g (by omega), setCountOf]

theorem cellGroup_wordValue (g : LaneWord) :
    (cellGroup (wordValue g)).val = (g.extractLsb' 0 3).toNat := by
  rw [cellGroup, wordValue_extract g (by omega)]
  rfl

theorem badHeader_iff (g : LaneWord) :
    (!wellFormedWord g || (wordValue g).getLsbD 7 || decide (4 < setCountOf g)) = true ↔
      BadHeader g := by
  rw [wordValue_getLsbD g (by omega), BadHeader, ← wellFormedWord_iff]
  simp [Nat.succ_le_iff, or_assoc]

theorem goodContent_iff (k g : LaneWord) (body : List LaneWord) :
    ((body.take (9 * setCountOf g + 3)).all wellFormedWord &&
      body.getD (9 * setCountOf g + 3) 0 ==
        cellCheck (k :: g :: body.take (9 * setCountOf g + 3))) = true ↔ GoodContent k g body := by
  simp only [GoodContent, Bool.and_eq_true, List.all_eq_true, wellFormedWord_iff, beq_iff_eq,
    ← BitVec.toNat_inj, cellCheck_toNat]

/-- The reader's decision over the words after the kind word (R28). -/
theorem scanBody_eq (k g : LaneWord) (body : List LaneWord) [Decidable (BadHeader g)]
    [Decidable (GoodContent k g body)] : scanBody k g body =
      if BadHeader g then .discarded 4
      else if body.length < 9 * setCountOf g + 4 then .discarded (4 + body.length)
      else if GoodContent k g body then .valid (readContent k g body)
      else .discarded (9 * setCountOf g + 8) := by
  simp only [scanBody, cellSetCount_wordValue, badHeader_iff, goodContent_iff, readContent,
    wordValue_getLsbD g (show 6 < 8 by omega)]

theorem readContent_sets_length (k g : LaneWord) (body : List LaneWord) :
    (readContent k g body).sets.length = setCountOf g := parseSets_length _ _

/-- The samples of set `i` stand in nine words of the body. -/
theorem readContent_sets (k g : LaneWord) (body : List LaneWord) {i : Nat} {x : SampleSet}
    (h : (readContent k g body).sets[i]? = some x) : x = leadingSet (body.drop (9 * i)) := by
  have bound : i < setCountOf g := by
    rw [← readContent_sets_length k g body]
    exact (List.getElem?_eq_some_iff.mp h).1
  have words (j : Nat) (hj : j < 9) :
      ((body.take (9 * setCountOf g + 3)).drop (9 * i)).getD j 0 = (body.drop (9 * i)).getD j 0 := by
    have inside : 9 * i + j < 9 * setCountOf g + 3 := by omega
    simp [List.getD_eq_getElem?_getD, inside]
  rw [readContent, parseSets_getElem? _ bound, Option.some_inj] at h
  rw [← h]
  simp (disch := omega) only [leadingSet, words]

theorem readContent_tags (k g : LaneWord) (body : List LaneWord) (j : Fin 3) :
    (readContent k g body).tags.look j = wordValue (body.getD (9 * setCountOf g + j.val) 0) := by
  simp [readContent, List.getD_eq_getElem?_getD]

/-- A valid cell is read from a pair, a sound kind word and a header that R28 takes. -/
theorem scanCell_valid {ws : List LaneWord} {c : CellContent} (h : scanCell ws = .valid c) :
    ∃ k g body, ¬ BadHeader g ∧ c = readContent k g body := by
  classical
  by_cases pair : ∃ rest, ws = 0x3C3 :: 0x03C :: rest
  case neg =>
    rw [scanCell_noPair fun rest e => pair ⟨rest, e⟩] at h
    cases h
  case pos =>
    obtain ⟨rest, rfl⟩ := pair
    match rest with
    | [] => cases h
    | k :: rest =>
      by_cases agree : GuardsAgree k
      case neg =>
        rw [scanCell_badKind rest agree] at h
        cases h
      by_cases kind : k.extractLsb' 0 8 = 0x5A
      case neg =>
        rw [scanCell_otherKind rest agree kind] at h
        cases h
      match rest with
      | [] =>
        rw [scanCell_kindAtEnd agree kind] at h
        cases h
      | g :: body =>
        rw [scanCell_sound g body agree kind, scanBody_eq] at h
        split at h
        · cases h
        · rename_i sound
          split at h
          · cases h
          · split at h
            · exact ⟨k, g, body, sound, (CellScan.valid.inj h).symm⟩
            · cases h

/-- A valid cell holds at most four sets (R28). -/
theorem scanCell_valid_sets {ws : List LaneWord} {c : CellContent} (h : scanCell ws = .valid c) :
    c.sets.length ≤ 4 := by
  obtain ⟨k, g, body, sound, rfl⟩ := scanCell_valid h
  rw [readContent_sets_length]
  exact Nat.not_lt.mp fun more => sound (.inr (.inr more))

theorem cellsAreChecked : CellsAreChecked := by
  classical
  refine ⟨fun ws => scanCell_noPair, rfl, fun k rest => ⟨scanCell_badKind rest,
    scanCell_otherKind rest, fun agree kind atEnd => ?_⟩, fun k g body agree kind => ?_⟩
  · rw [atEnd]
    exact scanCell_kindAtEnd agree kind
  · have scan := (scanCell_sound g body agree kind).trans (scanBody_eq k g body)
    refine ⟨fun bad => ?_, fun sound short => ?_, fun sound long wrong => ?_,
      fun sound long good => ⟨readContent k g body, ?_, cellGroup_wordValue g, rfl,
        readContent_sets_length k g body, fun i x at_i => ?_, readContent_tags k g body, rfl⟩⟩
    · rw [scan, if_pos (show BadHeader g from bad)]
    · rw [scan, if_neg (show ¬ BadHeader g from sound)]
      exact if_pos short
    · rw [scan, if_neg (show ¬ BadHeader g from sound)]
      exact (if_neg (Nat.not_lt.mpr long)).trans (if_neg wrong)
    · rw [scan, if_neg (show ¬ BadHeader g from sound)]
      exact (if_neg (Nat.not_lt.mpr long)).trans (if_pos good)
    · rw [readContent_sets k g body at_i]
      simp [leadingSet, sampleOf, wordValue]

end Sys2Proof.Machine.SoundCells
end

section
/-! PROOFS. Cells are read back whole, and the writer emits such cells (R48, R51, R178). -/

namespace Sys2Proof.Machine.SoundCells

/-! ## A cell laid out is read back (R51, R178) -/

/-- The header word of a cell. -/
def headerWord (g : GroupId) (n : Nat) (flag : Bool) : LaneWord := guarded (groupCountByte g n flag)

/-- The words of a cell's sets and tag bytes. -/
def bodyWords (sets : List SampleSet) (tags : Table Byte 3) : List LaneWord :=
  sets.flatMap setWords ++ (List.finRange 3).map fun j => guarded (tags.look j)

/-- The check word of a cell. -/
def checkWord (g : GroupId) (flag : Bool) (sets : List SampleSet) (tags : Table Byte 3) : LaneWord :=
  cellCheck (guarded soundKind :: headerWord g sets.length flag :: bodyWords sets tags)

theorem cellWords_eq (g : GroupId) (flag : Bool) (sets : List SampleSet) (tags : Table Byte 3) :
    cellWords g flag sets tags = 0x3C3 :: 0x03C :: guarded soundKind ::
      headerWord g sets.length flag :: (bodyWords sets tags ++ [checkWord g flag sets tags]) := rfl

theorem bodyWords_length (sets : List SampleSet) (tags : Table Byte 3) :
    (bodyWords sets tags).length = 9 * sets.length + 3 := by
  simp only [bodyWords, List.length_append, flatMap_setWords_length, List.length_map,
    List.length_finRange]

theorem take_bodyWords (sets : List SampleSet) (tags : Table Byte 3) (rest : List LaneWord) :
    (bodyWords sets tags ++ rest).take (9 * sets.length + 3) = bodyWords sets tags :=
  List.take_left' (bodyWords_length sets tags)

theorem guardsAgree_guarded (b : Byte) : GuardsAgree (guarded b) :=
  (wellFormedWord_iff _).mp (wellFormedWord_guarded b)

theorem guardsAgree_bodyWords (sets : List SampleSet) (tags : Table Byte 3) :
    ∀ w ∈ bodyWords sets tags, GuardsAgree w := by
  intro w hw
  rcases List.mem_append.mp hw with hw | hw
  · obtain ⟨x, _, hw⟩ := List.mem_flatMap.mp hw
    exact (wellFormedWord_iff w).mp (wellFormed_setWords x w hw)
  · obtain ⟨j, _, rfl⟩ := List.mem_map.mp hw
    exact guardsAgree_guarded _

section
variable (g : GroupId) (flag : Bool) {n : Nat}

theorem setCountOf_headerWord (h : n ≤ 4) : setCountOf (headerWord g n flag) = n := by
  obtain ⟨-, count, -, -⟩ := groupCountByte_fields g ⟨n, by omega⟩ flag
  rw [← cellSetCount_wordValue, headerWord, wordValue_guarded, count]

theorem not_badHeader_headerWord (h : n ≤ 4) : ¬ BadHeader (headerWord g n flag) := by
  obtain ⟨-, -, -, clear⟩ := groupCountByte_fields g ⟨n, by omega⟩ flag
  rintro (agree | top | more)
  · exact agree (guardsAgree_guarded _)
  · rw [headerWord, guarded_getLsbD_low _ (by omega), clear] at top
    cases top
  · rw [setCountOf_headerWord g flag h] at more
    omega

end

section
variable (g : GroupId) (flag : Bool) {sets : List SampleSet} (tags : Table Byte 3)
  (rest : List LaneWord)

theorem goodContent_bodyWords (h : sets.length ≤ 4) :
    GoodContent (guarded soundKind) (headerWord g sets.length flag)
      (bodyWords sets tags ++ checkWord g flag sets tags :: rest) := by
  have check : (bodyWords sets tags ++ checkWord g flag sets tags :: rest).getD
      (9 * sets.length + 3) 0 = checkWord g flag sets tags := by
    rw [← bodyWords_length sets tags]
    simp
  rw [GoodContent, setCountOf_headerWord g flag h, take_bodyWords, check]
  exact ⟨guardsAgree_bodyWords sets tags, cellCheck_toNat _⟩

theorem readContent_bodyWords (h : sets.length ≤ 4) :
    readContent (guarded soundKind) (headerWord g sets.length flag)
        (bodyWords sets tags ++ checkWord g flag sets tags :: rest) =
      ⟨g, flag, sets, tags, cellWords g flag sets tags⟩ := by
  obtain ⟨group, -, start, -⟩ := groupCountByte_fields g ⟨sets.length, by omega⟩ flag
  have whole : (bodyWords sets tags ++ checkWord g flag sets tags :: rest).take
      (9 * sets.length + 4) = bodyWords sets tags ++ [checkWord g flag sets tags] := by
    rw [List.append_cons]
    exact List.take_left' (by simp [bodyWords_length])
  have tagWord (j : Fin 3) :
      (bodyWords sets tags).getD (9 * sets.length + j.val) 0 = guarded (tags.look j) := by
    rw [bodyWords, List.getD_append_right _ _ _ _ (by rw [flatMap_setWords_length]; omega),
      flatMap_setWords_length, Nat.add_sub_cancel_left]
    simp [List.getD_eq_getElem?_getD]
  rw [readContent, setCountOf_headerWord g flag h, take_bodyWords, whole, cellWords_eq, CellContent.mk.injEq]
  refine ⟨?_, ?_, parseSets_flatMap sets _, Table.ext_look fun j => ?_, rfl⟩
  · rw [headerWord, wordValue_guarded, group]
  · rw [headerWord, guarded_getLsbD_low _ (by omega), start]
  · rw [Table.look_gen, tagWord, wordValue_guarded]

/-- A sound cell of at most four sets is read back whole, whatever words follow (R28, R178). -/
theorem scanCell_cellWords (h : sets.length ≤ 4) :
    scanCell (cellWords g flag sets tags ++ rest) =
      .valid ⟨g, flag, sets, tags, cellWords g flag sets tags⟩ := by
  classical
  have split : cellWords g flag sets tags ++ rest = 0x3C3 :: 0x03C :: guarded soundKind ::
      headerWord g sets.length flag ::
        (bodyWords sets tags ++ checkWord g flag sets tags :: rest) := by
    simp [cellWords_eq]
  have long : ¬ (bodyWords sets tags ++ checkWord g flag sets tags :: rest).length <
      9 * sets.length + 4 := by
    rw [List.length_append, bodyWords_length, List.length_cons]
    omega
  rw [split, scanCell_sound _ _ (guardsAgree_guarded _) (wordValue_guarded soundKind), scanBody_eq,
    if_neg (not_badHeader_headerWord g flag h), setCountOf_headerWord g flag h, if_neg long,
    if_pos (goodContent_bodyWords g flag tags rest h), readContent_bodyWords g flag tags rest h]

end

/-! ## Emitted cells (R48, R49, R51) -/

theorem flatMap_sampleWords (x y z : Sample) :
    [x, y, z].flatMap sampleWords = setWords ⟨x, y, z⟩ := by
  simp only [List.flatMap_cons, List.flatMap_nil, List.append_nil, setWords, List.append_assoc]

theorem readDests_groupDests (l : LaneId) (g : GroupId) (s : State) :
    ∃ x y z, (readDests (groupDests l g) s).1 = [x, y, z] := ⟨_, _, _, rfl⟩

/-- The words of one emitted set are those of a sample set (R49). -/
theorem emitSet_words (l : LaneId) (g : GroupId) (s : State) :
    ∃ x, (emitSet l g s).1 = setWords x := by
  unfold emitSet
  split
  · exact ⟨⟨0, 0, 0⟩, flatMap_sampleWords 0 0 0⟩
  · obtain ⟨x, y, z, samples⟩ := readDests_groupDests l g s
    refine ⟨⟨x, y, z⟩, ?_⟩
    dsimp only
    rw [samples, flatMap_sampleWords]

/-- The words of `n` emitted sets are those of `n` sample sets. -/
theorem emitSets_words (l : LaneId) (g : GroupId) (n : Nat) (s : State) :
    ∃ sets : List SampleSet, sets.length = n ∧ (emitSets l g n s).1 = sets.flatMap setWords := by
  induction n generalizing s with
  | zero => exact ⟨[], rfl, rfl⟩
  | succ n ih =>
    obtain ⟨x, head⟩ := emitSet_words l g s
    obtain ⟨sets, count, tail⟩ := ih (emitSet l g s).2
    refine ⟨x :: sets, by rw [List.length_cons, count], ?_⟩
    show (emitSet l g s).1 ++ (emitSets l g n (emitSet l g s).2).1 = _
    rw [head, tail, List.flatMap_cons]

/-- The tag bytes of an emitted cell on line `i` (R51). -/
def lineTags (w : Writer) (g : GroupId) (i : Nat) : Table Byte 3 :=
  Table.gen fun j => match asFin 32 i with
    | some k => (w.latched.look (trackOf g j)).look k
    | none => 0

theorem emittedTags_eq (w : Writer) (g : GroupId) (i : Nat) :
    emittedTags w g i = (List.finRange 3).map fun j => guarded ((lineTags w g i).look j) := by
  refine List.map_congr_left fun j _ => congrArg guarded ?_
  cases h : asFin 32 i <;> simp [lineTags, h]

/-- An emitted cell is a sound cell with the sets of the cadence (R48, R51). -/
theorem emitCell_words (l : LaneId) (c : FormatClass) (i : Nat) (g : GroupId) (s : State) :
    ∃ sets : List SampleSet, sets.length = cellSets c i ∧
      (emitCell l c i g s).1 = cellWords g (i == 0) sets (lineTags (s.writers.look l) g i) := by
  obtain ⟨sets, count, words⟩ := emitSets_words l g (cellSets c i) s
  refine ⟨sets, count, ?_⟩
  rw [cellWords_eq, checkWord, headerWord, bodyWords, count, ← words, ← emittedTags_eq]
  rfl

/-- R48: S lies between Lc and 4 Lc in every class, so that a line carries one to four sets. -/
theorem cellSets_bounds (c : FormatClass) (i : Nat) : 1 ≤ cellSets c i ∧ cellSets c i ≤ 4 := by
  cases c <;> simp only [cellSets, cadence, FormatClass.samples, FormatClass.cellLines] <;> omega

/-- Settles O54: the round trip of `scanCell_cellWords`, and `emitCell_words` for what the writer emits. -/
theorem emittedCellsAreValid : Obligations.EmittedCellsAreValid := by
  refine ⟨fun g flag sets tags rest h => scanCell_cellWords g flag tags rest h,
    fun l c i g s _ => ?_⟩
  obtain ⟨sets, count, words⟩ := emitCell_words l c i g s
  obtain ⟨least, most⟩ := cellSets_bounds c i
  refine ⟨sets, lineTags (s.writers.look l) g i, words, count, count ▸ least, count ▸ most,
    fun k j line => ?_, fun beyond j => ?_⟩
  · simp [lineTags, asFin, line]
  · simp [lineTags, asFin, Nat.not_lt.mpr beyond]

end Sys2Proof.Machine.SoundCells
end

section
/-! PROOFS. The sets of a cell written into the rings of its group (R29, R59). -/

namespace Sys2Proof.Machine.SoundCells

/-! ## Tables -/

theorem put_look_self {α : Type} {n : Nat} (t : Table α n) (i : Fin n) : t.put i (t.look i) = t :=
  Table.ext_look fun j => by rw [Table.look_put]; split <;> simp [*]

theorem put_put {α : Type} {n : Nat} (t : Table α n) (i : Fin n) (x y : α) :
    (t.put i x).put i y = t.put i y :=
  Table.ext_look fun j => by simp only [Table.look_put]; split <;> rfl

theorem modReader_id (l : LaneId) (s : State) : modReader l (fun r => r) s = s := by
  rw [modReader, put_look_self]

theorem modReader_modReader (l : LaneId) (f h : Reader → Reader) (s : State) :
    modReader l f (modReader l h s) = modReader l (fun r => f (h r)) s := by
  simp [modReader, put_put]

theorem modGroup_id (g : GroupId) (r : Reader) : r.modGroup g (fun q => q) = r := by
  rw [Reader.modGroup, put_look_self]

theorem modGroup_modGroup (g : GroupId) (f h : GroupRead → GroupRead) (r : Reader) :
    (r.modGroup g h).modGroup g f = r.modGroup g fun q => f (h q) := by
  simp [Reader.modGroup, put_put]

/-! ## Rings (R1, R59) -/

@[simp] theorem laneRing_trackOf_inj {l : LaneId} {g : GroupId} {j k : Fin 3} :
    laneRing l (trackOf g j) = laneRing l (trackOf g k) ↔ j = k := by
  simp only [laneRing, trackOf, Fin.mk.injEq]
  omega

theorem groupOf_trackOf (g : GroupId) (j : Fin 3) : groupOf (trackOf g j) = g := by
  simp only [groupOf, trackOf, Fin.ext_iff]
  omega

theorem trackOf_mod (g : GroupId) (j : Fin 3) : (trackOf g j).val % 3 = j.val := by
  simp only [trackOf]
  omega

theorem ringAddr_div (r : RingId) (i : RingPos) : ringAddr r i / 4096 = r.val := by
  have := i.isLt
  simp only [ringAddr]
  omega

theorem ofNat_ringAddr (r : RingId) (i : RingPos) : BitVec.ofNat 12 (ringAddr r i) = i := by
  apply BitVec.eq_of_toNat_eq
  have := i.isLt
  simp only [ringAddr, BitVec.toNat_ofNat]
  omega

theorem ringAddr_ne_of_ring_ne {r q : RingId} (i k : RingPos) (h : r ≠ q) :
    ringAddr r i ≠ ringAddr q k := fun e => h <| Fin.ext <| by
  rw [← ringAddr_div r i, e, ringAddr_div]

/-- A position of a ring lies in a span of another ring nowhere. -/
theorem inRingSpan_other {r q : RingId} (i k : RingPos) (n : Nat) (h : q ≠ r) :
    inRingSpan r i n (ringAddr q k) = false := by
  have : q.val ≠ r.val := fun e => h (Fin.ext e)
  simp [inRingSpan, ringAddr_div, this]

/-- The position before a span that does not go round the ring lies outside it. -/
theorem inRingSpan_before (r : RingId) (i : RingPos) {n : Nat} (h : n < 4096) :
    inRingSpan r (i + 1) n (ringAddr r i) = false := by
  have wrap : (i - (i + 1)).toNat = 4095 := by bv_omega
  simp only [inRingSpan, ofNat_ringAddr, wrap, Bool.and_eq_false_imp, decide_eq_false_iff_not]
  omega

/-- A span is its first position and the span after it. -/
theorem inRingSpan_succ {r : RingId} {i : RingPos} {n a : Nat}
    (h : inRingSpan r i (n + 1) a = false) : a ≠ ringAddr r i ∧ inRingSpan r (i + 1) n a = false := by
  constructor
  · rintro rfl
    simp [inRingSpan, ringAddr_div, ofNat_ringAddr] at h
  · simp only [inRingSpan, Bool.and_eq_false_imp, decide_eq_true_eq,
      decide_eq_false_iff_not, Nat.not_lt] at h ⊢
    intro ring
    have far := h ring
    bv_omega

/-! ## Writing sets (R29) -/

/-- The sample of a set for track `j` of its group. -/
def trackSample (x : SampleSet) : Fin 3 → Sample
  | 0 => x.first
  | 1 => x.second
  | 2 => x.third

/-- One set written into the three sources of a group, which counts it: `takeSet` below S. -/
def writeSet (l : LaneId) (g : GroupId) (x : SampleSet) (s : State) : State :=
  modReader l (Reader.modGroup g fun q => { q with setCount := q.setCount + 1 })
    (writeSample (laneRing l (trackOf g 2)) x.third
      (writeSample (laneRing l (trackOf g 1)) x.second
        (writeSample (laneRing l (trackOf g 0)) x.first s)))

/-- Sets written one after another. -/
def writeSets (l : LaneId) (g : GroupId) (xs : List SampleSet) (s : State) : State :=
  xs.foldl (fun s x => writeSet l g x s) s

/-- The sets that the frame in progress of a lane can still take of a group (R29). -/
def setRoom (l : LaneId) (g : GroupId) (s : State) : Nat :=
  (s.lanes.look l).frameSamples - ((s.readers.look l).groups.look g).setCount

/-- The surplus mark set where sets were dropped (R29). -/
def markSurplus (l : LaneId) (dropped : Bool) (s : State) : State :=
  modReader l (fun r => { r with surplus := r.surplus || dropped }) s

section
variable (l : LaneId) (g : GroupId)

theorem takeSet_full (x : SampleSet) {s : State} (h : setRoom l g s = 0) :
    takeSet l g x s = markSurplus l true s := by
  rw [takeSet, if_pos (Nat.sub_eq_zero_iff_le.mp h), markSurplus]
  simp only [Bool.or_true]

theorem takeSet_room (x : SampleSet) {s : State} (h : setRoom l g s ≠ 0) :
    takeSet l g x s = writeSet l g x s :=
  if_neg fun full => h (Nat.sub_eq_zero_iff_le.mpr full)

theorem writeSet_reader (x : SampleSet) (s : State) :
    (writeSet l g x s).readers = s.readers.put l
      ((s.readers.look l).modGroup g fun q => { q with setCount := q.setCount + 1 }) := rfl

theorem writeSet_lanes (x : SampleSet) (s : State) : (writeSet l g x s).lanes = s.lanes := rfl

theorem setRoom_writeSet (x : SampleSet) (s : State) :
    setRoom l g (writeSet l g x s) = setRoom l g s - 1 := by
  simp only [setRoom, writeSet_lanes, writeSet_reader, Table.look_put_self, Reader.modGroup]
  omega

theorem setRoom_markSurplus (dropped : Bool) (s : State) :
    setRoom l g (markSurplus l dropped s) = setRoom l g s := by
  simp [setRoom, markSurplus]

theorem markSurplus_false (s : State) : markSurplus l false s = s := by
  simp only [markSurplus, Bool.or_false]
  exact modReader_id l s

theorem markSurplus_markSurplus (a b : Bool) (s : State) :
    markSurplus l a (markSurplus l b s) = markSurplus l (b || a) s := by
  simp only [markSurplus, modReader_modReader, Bool.or_assoc]

/-- The sets up to S are written; where more come, the surplus mark is left (R29). -/
theorem foldl_takeSet (xs : List SampleSet) (s : State) :
    xs.foldl (fun s x => takeSet l g x s) s =
      markSurplus l (decide (setRoom l g s < xs.length)) (writeSets l g (xs.take (setRoom l g s)) s) := by
  induction xs generalizing s with
  | nil => simp [writeSets, markSurplus_false]
  | cons x xs ih =>
    rw [List.foldl_cons, ih]
    by_cases full : setRoom l g s = 0
    · rw [takeSet_full l g x full, setRoom_markSurplus, full]
      simp [writeSets, markSurplus_markSurplus]
    · obtain ⟨room, h⟩ := Nat.exists_eq_succ_of_ne_zero full
      rw [takeSet_room l g x full, setRoom_writeSet, h]
      simp [writeSets]

/-! ### The reader -/

theorem writeSets_cons (x : SampleSet) (xs : List SampleSet) (s : State) :
    writeSets l g (x :: xs) s = writeSets l g xs (writeSet l g x s) := rfl

theorem writeSets_reader (xs : List SampleSet) (s : State) :
    (writeSets l g xs s).readers.look l =
      (s.readers.look l).modGroup g fun q => { q with setCount := q.setCount + xs.length } := by
  induction xs generalizing s with
  | nil => exact (modGroup_id g _).symm
  | cons x xs ih =>
    rw [writeSets_cons, ih, writeSet_reader, Table.look_put_self, modGroup_modGroup]
    simp only [List.length_cons, Nat.add_assoc, Nat.add_comm 1]

theorem writeSets_reader_other {k : LaneId} (xs : List SampleSet) (s : State) (h : k ≠ l) :
    (writeSets l g xs s).readers.look k = s.readers.look k := by
  induction xs generalizing s with
  | nil => rfl
  | cons x xs ih => rw [writeSets_cons, ih, writeSet_reader, Table.look_put_ne _ _ h.symm]

/-! ### The rings -/

/-- The address at which the next sample of track `j` of a group is written (R59). -/
def nextAddr (s : State) (j : Fin 3) : Nat :=
  ringAddr (laneRing l (trackOf g j)) (s.writeIndex.look (laneRing l (trackOf g j)))

theorem writeSet_index (x : SampleSet) (s : State) (j : Fin 3) :
    (writeSet l g x s).writeIndex.look (laneRing l (trackOf g j)) =
      s.writeIndex.look (laneRing l (trackOf g j)) + 1 := by
  match j with
  | 0 | 1 | 2 => simp [writeSet, writeSample]

theorem writeSet_index_other {u : RingId} (x : SampleSet) (s : State)
    (h : ∀ j, u ≠ laneRing l (trackOf g j)) :
    (writeSet l g x s).writeIndex.look u = s.writeIndex.look u := by
  simp [writeSet, writeSample, (h _).symm]

theorem writeSet_mem (x : SampleSet) (s : State) :
    (writeSet l g x s).mem = storeWrite (storeWrite (storeWrite s.mem (nextAddr l g s 0) x.first)
      (nextAddr l g s 1) x.second) (nextAddr l g s 2) x.third := by
  simp [writeSet, writeSample, nextAddr]

theorem writeSet_wf (x : SampleSet) {s : State} (h : SampleStore.wf s.mem) :
    SampleStore.wf (writeSet l g x s).mem := by
  rw [writeSet_mem]
  exact storeWrite_wf _ _ (storeWrite_wf _ _ (storeWrite_wf _ _ h))

theorem nextAddr_inj {s : State} {j k : Fin 3} : nextAddr l g s j = nextAddr l g s k ↔ j = k := by
  refine ⟨fun e => ?_, fun e => by rw [e]⟩
  by_contra h
  exact ringAddr_ne_of_ring_ne _ _ (fun r => h (laneRing_trackOf_inj.mp r)) e

/-- Each sample of a set is read where its source's write index stood (R29, R59). -/
theorem writeSet_read (x : SampleSet) {s : State} (h : SampleStore.wf s.mem) (j : Fin 3) :
    storeRead (writeSet l g x s).mem (nextAddr l g s j) = trackSample x j := by
  have wf0 := storeWrite_wf (nextAddr l g s 0) x.first h
  have wf1 := storeWrite_wf (nextAddr l g s 1) x.second wf0
  rw [writeSet_mem]
  match j with
  | 0 =>
    rw [storeRead_storeWrite_ne _ (by simp [nextAddr_inj]),
      storeRead_storeWrite_ne _ (by simp [nextAddr_inj]), storeRead_storeWrite_self _ _ h]
    rfl
  | 1 =>
    rw [storeRead_storeWrite_ne _ (by simp [nextAddr_inj]), storeRead_storeWrite_self _ _ wf0]
    rfl
  | 2 =>
    rw [storeRead_storeWrite_self _ _ wf1]
    rfl

theorem writeSet_read_other {a : Nat} (x : SampleSet) (s : State) (h : ∀ j, a ≠ nextAddr l g s j) :
    storeRead (writeSet l g x s).mem a = storeRead s.mem a := by
  rw [writeSet_mem, storeRead_storeWrite_ne _ (h 2), storeRead_storeWrite_ne _ (h 1),
    storeRead_storeWrite_ne _ (h 0)]

theorem writeSets_index (xs : List SampleSet) (s : State) (j : Fin 3) :
    (writeSets l g xs s).writeIndex.look (laneRing l (trackOf g j)) =
      s.writeIndex.look (laneRing l (trackOf g j)) + BitVec.ofNat 12 xs.length := by
  induction xs generalizing s with
  | nil => simp [writeSets]
  | cons x xs ih =>
    rw [writeSets_cons, ih, writeSet_index, List.length_cons]
    bv_omega

theorem writeSets_index_other {u : RingId} (xs : List SampleSet) (s : State)
    (h : ∀ j, u ≠ laneRing l (trackOf g j)) :
    (writeSets l g xs s).writeIndex.look u = s.writeIndex.look u := by
  induction xs generalizing s with
  | nil => rfl
  | cons x xs ih => rw [writeSets_cons, ih, writeSet_index_other l g x s h]

/-- Outside the spans of the sets written, the store is as it was (R59). -/
theorem writeSets_read_other {a : Nat} (xs : List SampleSet) (s : State)
    (h : ∀ j, inRingSpan (laneRing l (trackOf g j))
      (s.writeIndex.look (laneRing l (trackOf g j))) xs.length a = false) :
    storeRead (writeSets l g xs s).mem a = storeRead s.mem a := by
  induction xs generalizing s with
  | nil => rfl
  | cons x xs ih =>
    rw [writeSets_cons, ih _ fun j => ?_]
    · exact writeSet_read_other l g x s fun j => (inRingSpan_succ (h j)).1
    · rw [writeSet_index]
      exact (inRingSpan_succ (h j)).2

/-- Sets that do not go round the ring are read back, set `i` at position `i` from the write index (R29). -/
theorem writeSets_read (xs : List SampleSet) {s : State} (wf : SampleStore.wf s.mem)
    (short : xs.length ≤ 4096) {i : Nat} {x : SampleSet} (h : xs[i]? = some x) (j : Fin 3) :
    ringSample (writeSets l g xs s) (laneRing l (trackOf g j))
      (s.writeIndex.look (laneRing l (trackOf g j)) + BitVec.ofNat 12 i) = trackSample x j := by
  induction xs generalizing s i with
  | nil => simp at h
  | cons y xs ih =>
    rw [List.length_cons] at short
    rw [writeSets_cons]
    cases i with
    | zero =>
      obtain rfl : y = x := by simpa using h
      have outside (k : Fin 3) : inRingSpan (laneRing l (trackOf g k))
          ((writeSet l g y s).writeIndex.look (laneRing l (trackOf g k))) xs.length
          (nextAddr l g s j) = false := by
        by_cases e : j = k
        · rw [e, writeSet_index]
          exact inRingSpan_before _ _ (by omega)
        · exact inRingSpan_other _ _ _ fun r => e (laneRing_trackOf_inj.mp r)
      have kept := writeSets_read_other l g xs _ outside
      rw [writeSet_read l g y wf] at kept
      simpa [ringSample, nextAddr] using kept
    | succ i =>
      have next : s.writeIndex.look (laneRing l (trackOf g j)) + BitVec.ofNat 12 (i + 1) =
          (writeSet l g y s).writeIndex.look (laneRing l (trackOf g j)) + BitVec.ofNat 12 i := by
        rw [writeSet_index]
        bv_omega
      rw [next]
      exact ih (writeSet_wf l g y wf) (by omega) (by simpa using h)

end

/-! ## The meaning of SOUND_CELL (R27, R28, R29) -/

theorem exec_soundCell (l : LaneId) (words : List LaneWord) (s : State) :
    exec (.soundCell l words) s = .next (soundCell l words s) := rfl

theorem cellsParsed_iff (s : State) (l : LaneId) :
    cellsParsed s l = true ↔ s.phase = .running ∧ (s.lanes.look l).state = .run ∧
      (s.readers.look l).parsing = true ∧
        ∃ c, (s.lanes.look l).expected = some c ∧ (s.writers.look l).linePos < c.cellLines := by
  unfold cellsParsed
  cases h : (s.lanes.look l).expected <;> simp [and_assoc]

section
variable {l : LaneId} {words : List LaneWord} {s : State}

theorem soundCell_unparsed (h : ¬ cellsParsed s l = true) : soundCell l words s = s := if_neg h

theorem soundCell_noCell (h : scanCell words = .noPair ∨ scanCell words = .other) :
    soundCell l words s = s := by
  rcases h with h | h <;> simp [soundCell, h]

theorem soundCell_discarded {len : Nat} (parsed : cellsParsed s l = true)
    (h : scanCell words = .discarded len) :
    soundCell l words s = setFlag (.cellErr l) (modReader l Reader.abandonTags s) := by
  simp [soundCell, parsed, h]

theorem soundCell_valid {c : CellContent} (parsed : cellsParsed s l = true)
    (h : scanCell words = .valid c) : soundCell l words s = takeCell l c s := by
  simp [soundCell, parsed, h]

end

end Sys2Proof.Machine.SoundCells
end

section
/-! PROOFS. SOUND_CELL: a cell is taken or discarded (R27, R28, R29, R36, R37, R39). -/

namespace Sys2Proof.Machine.SoundCells

/-! ## A discarded cell (R28, R36) -/

/-- What a discarded cell leaves: CELL_ERR, and a reader whose tag assemblies are abandoned (R28, R36). -/
theorem discardCell_frame (l : LaneId) (s : State) :
    ∃ v p, setFlag (.cellErr l) (modReader l Reader.abandonTags s) =
      { modReader l Reader.abandonTags s with flags := v, ports := p } :=
  setFlag_frame _ _

theorem discardCell_readers (l : LaneId) (s : State) :
    (setFlag (.cellErr l) (modReader l Reader.abandonTags s)).readers =
      (modReader l Reader.abandonTags s).readers := by
  obtain ⟨v, p, h⟩ := discardCell_frame l s
  rw [h]

theorem discardCell_flag (l : LaneId) (s : State) (f : FaultFlag) :
    flagSet (setFlag (.cellErr l) (modReader l Reader.abandonTags s)) f = true ↔
      f = .cellErr l ∨ flagSet s f = true := by
  have same : flagSet (modReader l Reader.abandonTags s) f = flagSet s f := rfl
  rw [flagSet_setFlag, same, Bool.or_eq_true, decide_eq_true_eq, or_comm]

/-! ## A valid cell (R29, R36, R37, R39) -/

/-- The sets of a cell that a group takes in the frame in progress: up to S (R29). -/
def takenSets (l : LaneId) (c : CellContent) (s : State) : List SampleSet :=
  c.sets.take (setRoom l c.group s)

/-- The reader after a cell of which `m` sets were taken, handed on as carried through or not (R29, R33, R36,
R39). -/
def takenReader (c : CellContent) (m : Nat) (carried : Bool) (r : Reader) : Reader :=
  { (r.modGroup c.group fun q => { q with setCount := q.setCount + m, cellMark := true }).tagBytes c with
    surplus := r.surplus || decide (m < c.sets.length)
    handed := r.handed ++ [⟨c.group, carried, c.words⟩] }

theorem takenSets_length (l : LaneId) (c : CellContent) (s : State) :
    (takenSets l c s).length = min c.sets.length (setRoom l c.group s) := by
  rw [takenSets, List.length_take, min_comm]

theorem takenSets_short (l : LaneId) (c : CellContent) (s : State) :
    setRoom l c.group s < c.sets.length ↔ (takenSets l c s).length < c.sets.length := by
  rw [takenSets_length]
  omega

section
variable (l : LaneId) (c : CellContent) (s : State)

theorem takeCell_mem : (takeCell l c s).mem = (writeSets l c.group (takenSets l c s) s).mem := by
  simp [takeCell, foldl_takeSet, markSurplus, takenSets]

theorem takeCell_writeIndex :
    (takeCell l c s).writeIndex = (writeSets l c.group (takenSets l c s) s).writeIndex := by
  simp [takeCell, foldl_takeSet, markSurplus, takenSets]

theorem takeCell_reader : (takeCell l c s).readers.look l =
    takenReader c (takenSets l c s).length ((s.lanes.look l).plan.passes c.group)
      (s.readers.look l) := by
  have taken := writeSets_reader l c.group (takenSets l c s) s
  simp only [takeCell, foldl_takeSet, markSurplus, modReader_look_self, takenSets_short]
  rw [← takenSets, taken]
  simp [takenReader, Reader.modGroup, Reader.tagBytes, put_put]

theorem takeCell_reader_other {k : LaneId} (h : k ≠ l) :
    (takeCell l c s).readers.look k = s.readers.look k := by
  simp only [takeCell, foldl_takeSet, markSurplus, modReader_look_ne _ _ h.symm]
  exact writeSets_reader_other l c.group _ s h

/-- The frame of a taken cell (R29, R36). -/
theorem takeCell_changes : takeCell l c s =
    { s with
      readers := (takeCell l c s).readers, mem := (takeCell l c s).mem,
      writeIndex := (takeCell l c s).writeIndex } := by
  obtain ⟨r, m, i, h⟩ := takeCell_frame l c s
  rw [h]

end

section
variable (c : CellContent) (m : Nat) (carried : Bool) (r : Reader)

theorem takenReader_group : (takenReader c m carried r).groups.look c.group =
    { r.groups.look c.group with
      setCount := (r.groups.look c.group).setCount + m, cellMark := true } := by
  simp [takenReader, Reader.modGroup, Reader.tagBytes]

theorem takenReader_group_other {g : GroupId} (h : g ≠ c.group) :
    (takenReader c m carried r).groups.look g = r.groups.look g := by
  simp [takenReader, Reader.modGroup, Reader.tagBytes, h.symm]

theorem takenReader_track (j : Fin 3) :
    (takenReader c m carried r).tracks.look (trackOf c.group j) =
      (r.tracks.look (trackOf c.group j)).tagByte c.frameStart (c.tags.look j) := by
  simp [takenReader, Reader.modGroup, Reader.tagBytes, groupOf_trackOf, trackOf_mod]

theorem takenReader_track_other {k : TrackId} (h : groupOf k ≠ c.group) :
    (takenReader c m carried r).tracks.look k = r.tracks.look k := by
  simp [takenReader, Reader.modGroup, Reader.tagBytes, h]

end

/-- Set `i` of a taken cell is read back in the three sources of its group (R29). -/
theorem takeCell_read (l : LaneId) (c : CellContent) {s : State} (wf : SampleStore.wf s.mem)
    (few : c.sets.length ≤ 4) {i : Nat} {x : SampleSet} (taken : i < (takenSets l c s).length)
    (h : c.sets[i]? = some x) (j : Fin 3) :
    ringSample (takeCell l c s) (laneRing l (trackOf c.group j))
      (s.writeIndex.look (laneRing l (trackOf c.group j)) + BitVec.ofNat 12 i) = trackSample x j := by
  have short : (takenSets l c s).length ≤ 4096 := by
    rw [takenSets_length]
    omega
  have at_i : (takenSets l c s)[i]? = some x := by
    rw [takenSets, List.length_take] at taken
    rw [takenSets, List.getElem?_take_of_lt (by omega), h]
  rw [ringSample, takeCell_mem]
  exact writeSets_read l c.group _ wf short at_i j

/-- Settles O55: `cellsAreChecked` for what the reader finds, and the effect of each of its findings. -/
theorem soundCellIsTakenOrDiscarded : Obligations.SoundCellIsTakenOrDiscarded := by
  refine ⟨cellsAreChecked, fun l words s => ⟨?unread, ?discarded, ?valid⟩⟩
  case unread =>
    rintro (unparsed | noCell)
    · rw [exec_soundCell, soundCell_unparsed fun h => unparsed ((cellsParsed_iff s l).mp h)]
    · rw [exec_soundCell, soundCell_noCell noCell]
  case discarded =>
    intro len parsed scan
    have discarded := soundCell_discarded ((cellsParsed_iff s l).mpr parsed) scan
    have tells := (soundCell_tells l words s).1
    rw [discarded] at tells
    refine ⟨_, by rw [exec_soundCell, discarded], ?_, discardCell_flag l s, tells, ?_, fun k => ?_,
      fun k other => ?_⟩
    · obtain ⟨v, p, frame⟩ := discardCell_frame l s
      rw [frame]
      rfl
    · rw [discardCell_readers, modReader_look_self]
      rfl
    · rw [discardCell_readers, modReader_look_self]
      exact Table.look_gen _ k
    · rw [discardCell_readers, modReader_look_ne _ _ other.symm]
  case valid =>
    intro c parsed form scan q m
    have valid := soundCell_valid ((cellsParsed_iff s l).mpr parsed) scan
    have count : (takenSets l c s).length = m := takenSets_length l c s
    have index := writeSets_index l c.group (takenSets l c s) s
    have index_other := fun u => writeSets_index_other (u := u) l c.group (takenSets l c s) s
    have read_other := fun a => writeSets_read_other (a := a) l c.group (takenSets l c s) s
    have reader := takeCell_reader l c s
    rw [← takeCell_writeIndex, count] at index
    rw [← takeCell_writeIndex] at index_other
    rw [← takeCell_mem, count] at read_other
    rw [count] at reader
    refine ⟨takeCell l c s, by rw [exec_soundCell, valid], takeCell_changes l c s, ?_, ?_, ?_, ?_,
      index, index_other, ?_, read_other, ?_, ?_, ?_, fun k => takeCell_reader_other l c s⟩
    · rw [reader, takenReader_group]
    · intro g other
      rw [reader, takenReader_group_other _ _ _ _ other]
    · rw [reader]
      rfl
    · rw [reader]
      rfl
    · intro i x taken at_i
      have read := takeCell_read l c form.1 (scanCell_valid_sets scan) (count ▸ taken) at_i
      exact ⟨read 0, read 1, read 2⟩
    · intro j
      rw [reader, takenReader_track]
      rfl
    · intro k other
      rw [reader, takenReader_track_other _ _ _ _ other]
    · rw [reader, Bool.not_or]
      rfl

end Sys2Proof.Machine.SoundCells
end

section
/-! PROOFS. The block that a frame start latches for a track (R52 to R55, R79, R179). -/

namespace Sys2Proof.Machine.TagLatch

/-! ## The latch by tag reference (R52) -/

section
variable {s : State} {l : LaneId} {k : TrackId}

theorem latchBlock_none (h : (s.entries.look (laneDest l k)).tagUsed = .none) :
    latchBlock s l k = zeroBlock := by
  simp only [latchBlock, h]

theorem latchBlock_pass (h : (s.entries.look (laneDest l k)).tagUsed = .pass) :
    latchBlock s l k =
      if (s.entries.look (laneDest l k)).health = .good then
        (passBlock s (s.entries.look (laneDest l k)).src).getD zeroBlock
      else zeroBlock := by
  simp only [latchBlock, h]

theorem latchBlock_record {n : TagId} {c : TagContent}
    (h : (s.entries.look (laneDest l k)).tagUsed = .record n)
    (content : (s.tags.look n).content = some c) :
    latchBlock s l k = recordBlock c (s.entries.look (laneDest l k)).src (s.lanes.look l).expected
      (srcValid s (s.entries.look (laneDest l k)).src &&
        (s.entries.look (laneDest l k)).health == .good) := by
  simp only [latchBlock, h, content]

end

theorem zeroBlock_look (i : Fin 32) : zeroBlock.look i = 0 := Table.look_fill _ i

/-! ## The kept block of a source (R53) -/

theorem laneTrackOf_laneRing (l : LaneId) (k : TrackId) : laneTrackOf (laneRing l k) = some (l, k) := by
  have inLanes : (laneRing l k).val < 192 := by simp only [laneRing]; omega
  rw [laneTrackOf, dif_pos inLanes]
  simp only [laneRing, Option.some.injEq, Prod.mk.injEq, Fin.ext_iff]
  omega

theorem laneRing_of_laneTrackOf {r : RingId} {l : LaneId} {k : TrackId}
    (h : laneTrackOf r = some (l, k)) : r = laneRing l k := by
  unfold laneTrackOf at h
  split at h
  · cases h
    apply Fin.ext
    simp only [laneRing]
    omega
  · cases h

/-- A valid lane source hands on the kept block of its track (R53). -/
theorem passBlock_laneRing {s : State} {l : LaneId} {k : TrackId}
    (valid : srcValid s (.ring (laneRing l k)) = true) :
    passBlock s (.ring (laneRing l k)) = ((s.readers.look l).tracks.look k).kept := by
  simp only [passBlock, laneTrackOf_laneRing, valid, if_true]

theorem passBlock_invalid {s : State} {src : Src} (h : srcValid s src = false) :
    passBlock s src = none := by
  unfold passBlock
  split
  · split
    · rw [h]
      rfl
    · rfl
  · rfl

/-- Where no lane track that a source stands for keeps a block, the source has none (R53). -/
theorem passBlock_unkept {s : State} {src : Src}
    (h : ∀ l k, src = .ring (laneRing l k) → ((s.readers.look l).tracks.look k).kept = none) :
    passBlock s src = none := by
  unfold passBlock
  split
  · split
    · rename_i r _ l k track
      rw [h l k (congrArg Src.ring (laneRing_of_laneTrackOf track)), ite_self]
    · rfl
  · rfl

/-! ## The block of a record (R54, R55, R179) -/

/-- Bytes 0 to 29 of the block of a record: its stored fields, the origin, the rate class and the flags. -/
def recordBody (c : TagContent) (src : Src) (cls : Option FormatClass) (valid : Bool) : List Byte :=
  [c.kind, BitVec.ofNat 8 c.label.length] ++ padBytes 16 c.label ++ numBytes src.number ++
    [classCode cls, boolByte valid] ++ (List.finRange 8).map fun i => c.user.look i

/-- The 32 bytes of the block of a record: the body and its check. -/
def recordBytes (c : TagContent) (src : Src) (cls : Option FormatClass) (valid : Bool) : List Byte :=
  recordBody c src cls valid ++ numBytes (byteSum (recordBody c src cls valid) % 65536)

theorem padBytes_eq_map (n : Nat) (xs : List Byte) :
    padBytes n xs = (List.range n).map fun i => xs.getD i 0 := by
  apply List.ext_getElem
  · simp [padBytes]
  · intro i _ _
    by_cases inside : i < xs.length <;>
      simp [padBytes, List.getElem_append, List.getD_eq_getElem?_getD, inside]

theorem map_range_getD (xs : List Byte) : (List.range xs.length).map (fun i => xs.getD i 0) = xs := by
  rw [← padBytes_eq_map, padBytes, List.take_left]

theorem byteSum_eq_sum (xs : List Byte) :
    byteSum xs = ((List.range xs.length).map fun i => (xs.getD i 0).toNat).sum := by
  conv_lhs => rw [← map_range_getD xs]
  rw [byteSum, List.sum_eq_foldl, List.foldl_map, List.foldl_map]

/-- The two bytes of a field hold its number, most significant first (spec/12). -/
theorem bytesOf16_toNat {n : Nat} (h : n < 65536) :
    ((BitVec.ofNat 16 n).extractLsb' 8 8).toNat * 256 + ((BitVec.ofNat 16 n).extractLsb' 0 8).toNat =
      n := by
  simp only [BitVec.extractLsb'_toNat, BitVec.toNat_ofNat, Nat.shiftRight_eq_div_pow]
  omega

theorem number_lt (src : Src) : src.number < 65536 := by
  cases src <;> simp only [Src.number] <;> omega

section
variable (c : TagContent) (src : Src) (cls : Option FormatClass) (valid : Bool)

theorem recordBody_length : (recordBody c src cls valid).length = 30 := by
  simp [recordBody, padBytes, numBytes, bytesOf16]

theorem recordBytes_length : (recordBytes c src cls valid).length = 32 := by
  rw [recordBytes, List.length_append, recordBody_length]
  rfl

theorem recordBlock_bytes :
    (List.finRange 32).map (fun j => (recordBlock c src cls valid).look j) =
      recordBytes c src cls valid := by
  have look (j : Fin 32) :
      (recordBlock c src cls valid).look j = (recordBytes c src cls valid).getD j.val 0 :=
    Table.look_gen _ j
  have range : List.range 32 = (List.finRange 32).map Fin.val := by decide
  conv_rhs => rw [← map_range_getD (recordBytes c src cls valid), recordBytes_length, range]
  simp only [look, List.map_map, Function.comp_def]

theorem recordBytes_body {i : Nat} (h : i < 30) :
    (recordBytes c src cls valid).getD i 0 = (recordBody c src cls valid).getD i 0 :=
  List.getD_append _ _ _ _ (by rwa [recordBody_length])

/-- The label in its 16 bytes, zeros after its end (R179). -/
theorem recordBytes_label {i : Nat} (h : i < 16) :
    (recordBytes c src cls valid).getD (2 + i) 0 = c.label.getD i 0 := by
  rw [recordBytes_body c src cls valid (by omega)]
  simp [recordBody, padBytes_eq_map, List.getD_eq_getElem?_getD, List.getElem?_append, h,
    Nat.add_comm 2 i]

theorem recordBytes_user (i : Fin 8) :
    (recordBytes c src cls valid).getD (22 + i.val) 0 = c.user.look i := by
  have start : ([c.kind, BitVec.ofNat 8 c.label.length] ++ padBytes 16 c.label ++
      numBytes src.number ++ [classCode cls, boolByte valid]).length = 22 := by
    simp [padBytes, numBytes, bytesOf16]
  rw [recordBytes_body c src cls valid (by omega), recordBody,
    List.getD_append_right _ _ _ _ (by omega), start, Nat.add_sub_cancel_left]
  simp [List.getD_eq_getElem?_getD]

theorem recordBytes_origin :
    ((recordBytes c src cls valid).getD 18 0).toNat * 256 +
      ((recordBytes c src cls valid).getD 19 0).toNat = src.number := by
  rw [recordBytes, recordBody, padBytes_eq_map]
  exact bytesOf16_toNat (number_lt src)

theorem recordBytes_class : (recordBytes c src cls valid).getD 20 0 = classCode cls := by
  rw [recordBytes, recordBody, padBytes_eq_map]
  rfl

theorem recordBytes_flags : (recordBytes c src cls valid).getD 21 0 = boolByte valid := by
  rw [recordBytes, recordBody, padBytes_eq_map]
  rfl

/-- The check of a record's block covers its bytes 0 to 29 (R55). -/
theorem recordBytes_check :
    ((recordBytes c src cls valid).getD 30 0).toNat * 256 +
        ((recordBytes c src cls valid).getD 31 0).toNat =
      ((List.range 30).map fun i => ((recordBytes c src cls valid).getD i 0).toNat).sum % 65536 := by
  have sum : ((List.range 30).map fun i => ((recordBytes c src cls valid).getD i 0).toNat).sum =
      byteSum (recordBody c src cls valid) := by
    rw [byteSum_eq_sum, recordBody_length]
    refine congrArg List.sum (List.map_congr_left fun i hi => ?_)
    rw [recordBytes_body c src cls valid (List.mem_range.mp hi)]
  have check (i : Nat) : (recordBytes c src cls valid).getD (30 + i) 0 =
      (numBytes (byteSum (recordBody c src cls valid) % 65536)).getD i 0 := by
    rw [recordBytes, List.getD_append_right _ _ _ _ (by rw [recordBody_length]; omega),
      recordBody_length, Nat.add_sub_cancel_left]
  rw [sum, check 0, check 1]
  exact bytesOf16_toNat (Nat.mod_lt _ (by decide))

end

/-- Settles O57: by the entry's tag reference, with `passBlock` for PASS and `recordBytes` for a record. -/
theorem latchedBlocksFollowTheEntry : Obligations.LatchedBlocksFollowTheEntry := by
  rintro l k e s rfl
  refine ⟨fun reference i => ?none, fun l' k' r b reference good source ring valid kept => ?kept,
    fun reference missing i => ?missing, fun n c reference content _ => ?record⟩
  case none => rw [latchBlock_none reference, zeroBlock_look]
  case kept =>
    rw [source, ring] at valid
    rw [latchBlock_pass reference, if_pos good, source, ring, passBlock_laneRing valid, kept,
      Option.getD_some]
  case missing =>
    rw [latchBlock_pass reference]
    rcases missing with suspect | invalid | unkept
    · rw [if_neg (by rw [suspect]; decide), zeroBlock_look]
    · rw [passBlock_invalid invalid, Option.getD_none, ite_self, zeroBlock_look]
    · rw [passBlock_unkept unkept, Option.getD_none, ite_self, zeroBlock_look]
  case record =>
    rw [latchBlock_record reference content, recordBlock_bytes]
    refine ⟨rfl, rfl, fun i => recordBytes_label _ _ _ _, recordBytes_origin _ _ _ _,
      recordBytes_class _ _ _ _, (recordBytes_flags _ _ _ _).trans ?_, recordBytes_user _ _ _ _,
      recordBytes_check _ _ _ _⟩
    simp only [boolByte, Bool.and_eq_true, beq_iff_eq]

end Sys2Proof.Machine.TagLatch
end

section
/-! PROOFS. The words of a blanking that belong to no sound cell (R40). -/

namespace Sys2Proof.Machine.CellLines

open SoundCells

/-- A discarded cell takes at least one word (R28). -/
theorem scanCell_discarded_pos {ws : List LaneWord} {len : Nat} (h : scanCell ws = .discarded len) :
    0 < len := by
  classical
  by_cases pair : ∃ rest, ws = 0x3C3 :: 0x03C :: rest
  case neg =>
    rw [scanCell_noPair fun rest e => pair ⟨rest, e⟩] at h
    cases h
  case pos =>
    obtain ⟨rest, rfl⟩ := pair
    match rest with
    | [] => cases h; omega
    | k :: rest =>
      by_cases agree : GuardsAgree k
      case neg =>
        rw [scanCell_badKind rest agree] at h
        cases h
        omega
      by_cases kind : k.extractLsb' 0 8 = 0x5A
      case neg =>
        rw [scanCell_otherKind rest agree kind] at h
        cases h
      match rest with
      | [] =>
        rw [scanCell_kindAtEnd agree kind] at h
        cases h
        omega
      | g :: body =>
        rw [scanCell_sound g body agree kind, scanBody_eq] at h
        split_ifs at h <;> cases h <;> omega

/-- A valid cell takes at least one word (R28). -/
theorem scanCell_valid_pos {ws : List LaneWord} {c : CellContent} (h : scanCell ws = .valid c) :
    0 < c.words.length := by
  obtain ⟨k, g, body, -, rfl⟩ := scanCell_valid h
  exact Nat.succ_pos _

theorem otherWords_nil (n : Nat) : otherWords n [] = [] := by
  cases n <;> rfl

section
variable {n : Nat} {w : LaneWord} {ws : List LaneWord}

theorem otherWords_noPair (h : scanCell (w :: ws) = .noPair) :
    otherWords (n + 1) (w :: ws) = w :: otherWords n ws := by
  simp only [otherWords, h]

theorem otherWords_other (h : scanCell (w :: ws) = .other) :
    otherWords (n + 1) (w :: ws) = (w :: ws).take 3 ++ otherWords n ((w :: ws).drop 3) := by
  simp only [otherWords, h]

theorem otherWords_discarded {len : Nat} (h : scanCell (w :: ws) = .discarded len) :
    otherWords (n + 1) (w :: ws) = otherWords n ((w :: ws).drop len) := by
  simp only [otherWords, h]

theorem otherWords_valid {c : CellContent} (h : scanCell (w :: ws) = .valid c) :
    otherWords (n + 1) (w :: ws) = otherWords n ((w :: ws).drop c.words.length) := by
  simp only [otherWords, h]

end

/-- Fuel beyond the number of words changes nothing. -/
theorem otherWords_fuel (n : Nat) :
    ∀ m ws, List.length ws ≤ n → List.length ws ≤ m → otherWords n ws = otherWords m ws := by
  induction n with
  | zero =>
    intro m ws none _
    rw [List.length_eq_zero_iff.mp (Nat.le_zero.mp none), otherWords_nil, otherWords_nil]
  | succ n ih =>
    intro m ws fits fits'
    match ws, m with
    | [], m => rw [otherWords_nil, otherWords_nil]
    | w :: ws, m + 1 =>
      rw [List.length_cons] at fits fits'
      have after (len : Nat) (pos : 0 < len) :
          otherWords n ((w :: ws).drop len) = otherWords m ((w :: ws).drop len) :=
        ih m _ (by rw [List.length_drop, List.length_cons]; omega)
          (by rw [List.length_drop, List.length_cons]; omega)
      cases scan : scanCell (w :: ws) with
      | noPair => rw [otherWords_noPair scan, otherWords_noPair scan, ih m ws (by omega) (by omega)]
      | other => rw [otherWords_other scan, otherWords_other scan, after 3 (by omega)]
      | discarded len =>
        rw [otherWords_discarded scan, otherWords_discarded scan,
          after len (scanCell_discarded_pos scan)]
      | valid c =>
        rw [otherWords_valid scan, otherWords_valid scan, after _ (scanCell_valid_pos scan)]

/-- The other words of what is left of a blanking after some of its words. -/
theorem otherWords_drop (w : LaneWord) (ws : List LaneWord) {len : Nat} (h : 0 < len) :
    otherWords ws.length ((w :: ws).drop len) =
      otherWords ((w :: ws).drop len).length ((w :: ws).drop len) :=
  otherWords_fuel _ _ _ (by rw [List.length_drop, List.length_cons]; omega) (le_refl _)

end Sys2Proof.Machine.CellLines
end

section
/-! PROOFS. What reads of destinations leave (R49, R68, R71): each destination's entry after its reads, and the
SLIP flags they set, whatever other destinations are read between them. -/

namespace Sys2Proof.Machine.CellLines

/-! ## The reads of one destination -/

/-- The entry of a destination after `n` reads from state `s`. -/
def entryAfter (s : State) (d : DestId) (n : Nat) : Entry :=
  (movedEntry s none)^[n] (s.entries.look d)

/-- The sample of a destination's read after `n` reads from state `s`. -/
def sampleAfter (s : State) (d : DestId) (n : Nat) : Sample := entrySample s (entryAfter s d n)

/-- One of the first `n` reads of a destination slips (R71). -/
def SlipsWithin (s : State) (d : DestId) (n : Nat) : Prop :=
  ∃ k < n, moveSlips s none (entryAfter s d k) = true

theorem not_slipsWithin_zero (s : State) (d : DestId) : ¬ SlipsWithin s d 0 :=
  fun ⟨_, within, _⟩ => Nat.not_lt_zero _ within

theorem slipsWithin_one (s : State) (d : DestId) :
    SlipsWithin s d 1 ↔ moveSlips s none (s.entries.look d) = true := by
  simp [SlipsWithin, entryAfter]

/-- Where one destination alone is read, only it can slip. -/
theorem slipsWithin_only (s : State) (d k : DestId) (n : Nat) :
    SlipsWithin s k (n * [d].count k) ↔ k = d ∧ SlipsWithin s d n := by
  by_cases same : k = d
  · subst same
    simp
  · simp [same, Ne.symm same, not_slipsWithin_zero]

section
variable {s t : State} {d : DestId} {m : Nat}

/-- An emission leaves all that a read looks at beside the entries. -/
theorem reading_of_emits (h : Emits s t) : movedEntry t = movedEntry s ∧ entrySample t = entrySample s ∧
    moveSlips t = moveSlips s ∧ timingLane t = timingLane s ∧ t.lanes = s.lanes := by
  obtain ⟨w, e, v, p, rfl⟩ := h
  exact ⟨rfl, rfl, rfl, rfl, rfl⟩

theorem entryAfter_shift (h : Emits s t) (at_d : t.entries.look d = entryAfter s d m) (n : Nat) :
    entryAfter t d n = entryAfter s d (n + m) := by
  obtain ⟨moved, -⟩ := reading_of_emits h
  rw [entryAfter, entryAfter, at_d, moved, entryAfter, Function.iterate_add_apply]

theorem sampleAfter_shift (h : Emits s t) (at_d : t.entries.look d = entryAfter s d m) (n : Nat) :
    sampleAfter t d n = sampleAfter s d (n + m) := by
  obtain ⟨-, sample, -⟩ := reading_of_emits h
  rw [sampleAfter, sampleAfter, entryAfter_shift h at_d, sample]

theorem slipsWithin_add (h : Emits s t) (at_d : t.entries.look d = entryAfter s d m) (n : Nat) :
    SlipsWithin s d (m + n) ↔ SlipsWithin s d m ∨ SlipsWithin t d n := by
  obtain ⟨-, -, slips, -⟩ := reading_of_emits h
  simp only [SlipsWithin, entryAfter_shift h at_d, slips]
  constructor
  · rintro ⟨k, within, slip⟩
    by_cases early : k < m
    · exact .inl ⟨k, early, slip⟩
    · exact .inr ⟨k - m, by omega, by rwa [Nat.sub_add_cancel (by omega)]⟩
  · rintro (⟨k, within, slip⟩ | ⟨k, within, slip⟩)
    · exact ⟨k, by omega, slip⟩
    · exact ⟨k + m, by omega, slip⟩

end

/-! ## Reads of several destinations -/

/-- State `t` is left by an emission from `s` that reads each destination `count` times, in whatever order. -/
structure ReadsEach (count : DestId → Nat) (s t : State) : Prop where
  emits : Emits s t
  entry : ∀ d, t.entries.look d = entryAfter s d (count d)
  flag : ∀ f, flagSet t f = true ↔
    flagSet s f = true ∨ ∃ d, f = .slip (timingLane s d) ∧ SlipsWithin s d (count d)

theorem ReadsEach.refl (s : State) : ReadsEach (fun _ => 0) s s where
  emits := Emits.refl s
  entry _ := rfl
  flag _ := ⟨.inl, fun set => set.elim id fun ⟨d, _, slip⟩ => absurd slip (not_slipsWithin_zero s d)⟩

theorem ReadsEach.trans {a b : DestId → Nat} {s t u : State} (h : ReadsEach a s t)
    (k : ReadsEach b t u) : ReadsEach (fun d => a d + b d) s u where
  emits := Emits.trans _ _ _ h.emits k.emits
  entry d := by rw [k.entry, entryAfter_shift h.emits (h.entry d), Nat.add_comm]
  flag f := by
    obtain ⟨-, -, -, timing, -⟩ := reading_of_emits h.emits
    simp only [k.flag, h.flag, timing, slipsWithin_add h.emits (h.entry _), and_or_left, exists_or,
      or_assoc]

theorem ReadsEach.congr {a b : DestId → Nat} {s t : State} (h : ReadsEach a s t)
    (same : ∀ d, a d = b d) : ReadsEach b s t := by
  rwa [← funext same]

/-- A change of a writer is no read. -/
theorem ReadsEach.modWriter {count : DestId → Nat} {s t : State} (h : ReadsEach count s t) (l : LaneId)
    (f : Writer → Writer) : ReadsEach count s (modWriter l f t) where
  emits := Emits.trans _ _ _ h.emits ⟨_, t.entries, t.flags, t.ports, rfl⟩
  entry := h.entry
  flag := h.flag

theorem moveEntry_flag (n : Option Nat) (d : DestId) (s : State) (f : FaultFlag) :
    flagSet (moveEntry n d s) f = true ↔ flagSet s f = true ∨
      (f = .slip (timingLane s d) ∧ moveSlips s n (s.entries.look d) = true) := by
  have same : flagSet (modEntry d (movedEntry s n) s) f = flagSet s f := rfl
  unfold moveEntry
  dsimp only
  split
  · rename_i slip
    rw [flagSet_setFlag, same, Bool.or_eq_true, decide_eq_true_eq]
    simp only [slip, and_true]
  · rename_i stay
    rw [same]
    exact ⟨.inl, fun set => set.elim id fun ⟨_, slip⟩ => absurd slip stay⟩

theorem emits_of_movesEntries {s t : State} (h : MovesEntries s t) : Emits s t := by
  obtain ⟨e, v, p, rfl⟩ := h
  exact ⟨s.writers, e, v, p, rfl⟩

/-- One read of a destination (R68). -/
theorem readDest_reads (d : DestId) (s : State) :
    ReadsEach (fun k => [d].count k) s (readDest d s).2 where
  emits := emits_of_movesEntries (moveEntry_frame none d s)
  entry k := by
    by_cases same : k = d
    · subst same
      rw [List.count_singleton_self]
      exact moveEntry_self none k s
    · rw [List.count_singleton, if_neg (by simpa using Ne.symm same)]
      exact moveEntry_other none s same
  flag f := by
    have only (k : DestId) := slipsWithin_only s d k 1
    simp only [Nat.one_mul, slipsWithin_one] at only
    simp only [only, and_left_comm (b := _ = d), exists_eq_left]
    exact moveEntry_flag none d s f

theorem readDests_reads (ds : List DestId) (s : State) :
    ReadsEach (fun d => ds.count d) s (readDests ds s).2 := by
  induction ds generalizing s with
  | nil => exact ReadsEach.refl s
  | cons d ds ih =>
    refine ((readDest_reads d s).trans (ih _)).congr fun k => ?_
    rw [← List.count_append, List.singleton_append]

/-- Reads of different destinations yield the samples of their entries before (R49). -/
theorem readDests_samples {ds : List DestId} (different : ds.Nodup) (s : State) :
    (readDests ds s).1 = ds.map fun d => sampleAfter s d 0 := by
  induction ds generalizing s with
  | nil => rfl
  | cons d ds ih =>
    obtain ⟨apart, different⟩ := List.nodup_cons.mp different
    have first := readDest_reads d s
    show (readDest d s).1 :: (readDests ds (readDest d s).2).1 = _
    rw [ih different, List.map_cons]
    refine congrArg₂ List.cons rfl (List.map_congr_left fun k hk => ?_)
    have unread : [d].count k = 0 := List.count_eq_zero.mpr fun own =>
      apart (List.mem_singleton.mp own ▸ hk)
    exact sampleAfter_shift first.emits ((first.entry k).trans (by rw [unread])) 0

/-! ## Reads of one destination one after another -/

theorem readTimes_reads (n : Nat) (d : DestId) (s : State) :
    ReadsEach (fun k => n * [d].count k) s (readTimes n d s).2 := by
  induction n generalizing s with
  | zero => exact (ReadsEach.refl s).congr fun k => (Nat.zero_mul _).symm
  | succ n ih =>
    refine ((readDest_reads d s).trans (ih _)).congr fun k => ?_
    rw [Nat.succ_mul, Nat.add_comm]

theorem readTimes_samples (n : Nat) (d : DestId) (s : State) :
    (readTimes n d s).1 = (List.range n).map fun k => sampleAfter s d k := by
  induction n generalizing s with
  | zero => rfl
  | succ n ih =>
    have first := readDest_reads d s
    have at_d := (first.entry d).trans (by rw [List.count_singleton_self])
    show (readDest d s).1 :: (readTimes n d (readDest d s).2).1 = _
    rw [ih, List.range_succ_eq_map, List.map_cons, List.map_map]
    exact congrArg₂ List.cons rfl
      (List.map_congr_left fun k _ => sampleAfter_shift first.emits at_d k)

theorem readTimes_entry (n : Nat) (d : DestId) (s : State) :
    (readTimes n d s).2.entries.look d = entryAfter s d n := by
  rw [(readTimes_reads n d s).entry, List.count_singleton_self, Nat.mul_one]

/-- SLIP after `n` reads of a destination (R71). -/
theorem readTimes_slip (n : Nat) (d : DestId) (s : State) :
    flagSet (readTimes n d s).2 (.slip (timingLane s d)) = true ↔
      flagSet s (.slip (timingLane s d)) = true ∨ SlipsWithin s d n := by
  simp only [(readTimes_reads n d s).flag, slipsWithin_only, and_left_comm (b := _ = d),
    exists_eq_left, true_and]

end Sys2Proof.Machine.CellLines
end

section
/-! PROOFS. The emitted cells of a line (R45, R48, R49, R51): each in terms of the state before the line, whatever
cells stand before it. -/

namespace Sys2Proof.Machine.CellLines

open SoundCells

/-! ## The destinations of a group (R49) -/

theorem mem_groupDests {l : LaneId} {g h : GroupId} {j : Fin 3} :
    laneDest l (trackOf g j) ∈ groupDests l h ↔ g = h := by
  simp only [groupDests, laneDest, trackOf, List.mem_cons, List.not_mem_nil, or_false, Fin.ext_iff,
    Fin.val_zero, Fin.val_one, Fin.val_two]
  omega

theorem exists_of_mem_groupDests {l : LaneId} {g : GroupId} {d : DestId} (h : d ∈ groupDests l g) :
    ∃ j, d = laneDest l (trackOf g j) := by
  simp only [groupDests, List.mem_cons, List.not_mem_nil, or_false] at h
  rcases h with h | h | h
  · exact ⟨0, h⟩
  · exact ⟨1, h⟩
  · exact ⟨2, h⟩

theorem groupDests_nodup (l : LaneId) (g : GroupId) : (groupDests l g).Nodup := by
  simp [groupDests, laneDest, trackOf]

theorem count_groupDests (l : LaneId) (g h : GroupId) (j : Fin 3) :
    (groupDests l h).count (laneDest l (trackOf g j)) = if g = h then 1 else 0 := by
  simp only [(groupDests_nodup l h).count, mem_groupDests]

/-- A destination of a lane is timed by the lane (R66). -/
theorem timingLane_laneDest (s : State) (l : LaneId) (k : TrackId) :
    timingLane s (laneDest l k) = l := by
  have lane : laneTrackOf (laneDest l k) = some (l, k) := TagLatch.laneTrackOf_laneRing l k
  simp only [timingLane, lane]

/-! ## Sets (R49) -/

/-- The sets of a group that the frame in progress still reads (R49). -/
def readRoom (l : LaneId) (s : State) (g : GroupId) : Nat :=
  (s.lanes.look l).frameSamples - ((s.writers.look l).groups.look g).reads

/-- The sample of set `k` that an emission from `s` gives a track: a read, or zero beyond S (R49). -/
def emittedSample (l : LaneId) (s : State) (g : GroupId) (k : Nat) (j : Fin 3) : Sample :=
  if k < readRoom l s g then sampleAfter s (laneDest l (trackOf g j)) k else 0

/-- Set `k` that an emission from `s` gives a group. -/
def emittedSet (l : LaneId) (s : State) (g : GroupId) (k : Nat) : SampleSet :=
  ⟨emittedSample l s g k 0, emittedSample l s g k 1, emittedSample l s g k 2⟩

/-- The sets that an emission of `n` sets reads of each destination of a group (R49). -/
def setReads (l : LaneId) (s : State) (n : Nat) (g : GroupId) : Nat := min n (readRoom l s g)

/-- The reads of each destination where the groups `gs` are read, each as often as `r` says. -/
def groupReads (l : LaneId) (gs : List GroupId) (r : GroupId → Nat) (d : DestId) : Nat :=
  (gs.map fun g => r g * (groupDests l g).count d).sum

/-- The writer after emitting `n` sets of each of the groups `gs`, of which `r` were read (R48, R49). -/
def emittedWriter (gs : List GroupId) (n : Nat) (r : GroupId → Nat) (w : Writer) : Writer :=
  { w with groups := Table.gen fun g =>
      if g ∈ gs then ⟨(w.groups.look g).emitted + n, (w.groups.look g).reads + r g⟩
      else w.groups.look g }

section
variable {l : LaneId} {g : GroupId} {s t : State}

/-- A later set of an emission is the first of the emission from where it has come to. -/
theorem emittedSet_shift {m : Nat} (h : Emits s t) (room : readRoom l t g = readRoom l s g - m)
    (at_g : ∀ j, t.entries.look (laneDest l (trackOf g j)) = entryAfter s (laneDest l (trackOf g j)) m)
    (k : Nat) : emittedSet l t g k = emittedSet l s g (k + m) := by
  have within : k < readRoom l s g - m ↔ k + m < readRoom l s g := by omega
  simp only [emittedSet, emittedSample, room, sampleAfter_shift h (at_g _), within]

theorem emitSet_full (h : readRoom l s g = 0) :
    emitSet l g s = (setWords (emittedSet l s g 0), s) := by
  rw [emitSet, if_pos (Nat.sub_eq_zero_iff_le.mp h), flatMap_sampleWords]
  simp only [emittedSet, emittedSample, h, Nat.lt_irrefl, if_false]

theorem emitSet_room (h : readRoom l s g ≠ 0) :
    emitSet l g s = (setWords (emittedSet l s g 0),
      modWriter l (Writer.modGroup g fun q => { q with reads := q.reads + 1 })
        (readDests (groupDests l g) s).2) := by
  have samples := readDests_samples (groupDests_nodup l g) s
  rw [emitSet, if_neg fun full => h (Nat.sub_eq_zero_iff_le.mpr full)]
  dsimp only
  rw [samples]
  simp only [groupDests, List.map_cons, List.map_nil, flatMap_sampleWords, emittedSet, emittedSample,
    Nat.pos_of_ne_zero h, if_true]

theorem readDests_writers (ds : List DestId) (s : State) :
    (readDests ds s).2.writers = s.writers := by
  obtain ⟨e, v, p, h⟩ := readDests_frame ds s
  rw [h]

end

theorem modWriter_writers {s t : State} (h : s.writers = t.writers) (l : LaneId)
    (f : Writer → Writer) : (modWriter l f s).writers = (modWriter l f t).writers := by
  simp only [modWriter, h]

theorem modWriter_modWriter (l : LaneId) (f h : Writer → Writer) (s : State) :
    modWriter l f (modWriter l h s) = modWriter l (fun w => f (h w)) s := by
  simp [modWriter, put_put]

theorem modWriter_congr {l : LaneId} {f h : Writer → Writer} {s : State}
    (same : f (s.writers.look l) = h (s.writers.look l)) : modWriter l f s = modWriter l h s := by
  rw [modWriter, modWriter, same]

theorem modWriter_id (l : LaneId) (s : State) : modWriter l (fun w => w) s = s := by
  rw [modWriter, put_look_self]

/-- State `t` is left by an emission of `n` sets of group `g` from `s` (R49). -/
structure SetsEmitted (l : LaneId) (g : GroupId) (n : Nat) (s t : State) : Prop where
  reads : ReadsEach (fun d => setReads l s n g * (groupDests l g).count d) s t
  writers : t.writers =
    (modWriter l (Writer.modGroup g fun q => { q with reads := q.reads + setReads l s n g }) s).writers

section
variable {l : LaneId} {g : GroupId} {n : Nat} {s t : State}

theorem SetsEmitted.none (h : setReads l s n g = 0) : SetsEmitted l g n s s where
  reads := (ReadsEach.refl s).congr fun d => by rw [h, Nat.zero_mul]
  writers := by
    have same : (s.writers.look l).modGroup g (fun q => q) = s.writers.look l := by
      rw [Writer.modGroup, put_look_self]
    rw [h]
    exact congrArg State.writers ((modWriter_id l s).symm.trans (modWriter_congr same.symm))

theorem SetsEmitted.room (h : SetsEmitted l g n s t) :
    readRoom l t g = readRoom l s g - setReads l s n g := by
  obtain ⟨-, -, -, -, lanes⟩ := reading_of_emits h.reads.emits
  simp only [readRoom, lanes, h.writers, modWriter_look_self, Writer.modGroup, Table.look_put_self]
  omega

theorem SetsEmitted.entry (h : SetsEmitted l g n s t) (j : Fin 3) :
    t.entries.look (laneDest l (trackOf g j)) =
      entryAfter s (laneDest l (trackOf g j)) (setReads l s n g) := by
  rw [h.reads.entry, count_groupDests, if_pos rfl, Nat.mul_one]

/-- Emissions of one group's sets, one after another, are one emission. -/
theorem SetsEmitted.trans {m : Nat} {u : State} (h : SetsEmitted l g m s t) (k : SetsEmitted l g n t u)
    (count : setReads l s m g + setReads l t n g = setReads l s (m + n) g) :
    SetsEmitted l g (m + n) s u where
  reads := (h.reads.trans k.reads).congr fun d => by rw [← count, Nat.add_mul]
  writers := by
    rw [k.writers, modWriter_writers h.writers, modWriter_modWriter, ← count]
    refine congrArg State.writers (modWriter_congr ?_)
    simp only [Writer.modGroup, put_put, Table.look_put_self, Nat.add_assoc]

end

/-- One emitted set (R49). -/
theorem emitSet_emitted (l : LaneId) (g : GroupId) (s : State) :
    SetsEmitted l g 1 s (emitSet l g s).2 := by
  by_cases full : readRoom l s g = 0
  · rw [emitSet_full full]
    exact SetsEmitted.none (by rw [setReads, full, Nat.min_zero])
  · have one : setReads l s 1 g = 1 := Nat.min_eq_left (Nat.pos_of_ne_zero full)
    rw [emitSet_room full]
    refine ⟨((readDests_reads _ s).modWriter l _).congr fun d => by rw [one, Nat.one_mul], ?_⟩
    rw [modWriter_writers (readDests_writers _ s), one]

theorem emitSet_first (l : LaneId) (g : GroupId) (s : State) :
    (emitSet l g s).1 = setWords (emittedSet l s g 0) := by
  by_cases full : readRoom l s g = 0
  · rw [emitSet_full full]
  · rw [emitSet_room full]

/-- After one set, an emission goes on with the sets after it. -/
theorem emittedSet_next (l : LaneId) (g : GroupId) (s : State) :
    emittedSet l (emitSet l g s).2 g = fun k => emittedSet l s g (k + 1) := by
  funext k
  by_cases full : readRoom l s g = 0
  · simp only [emitSet_full full, emittedSet, emittedSample, full, Nat.not_lt_zero, if_false]
  · have one : setReads l s 1 g = 1 := Nat.min_eq_left (Nat.pos_of_ne_zero full)
    have first := emitSet_emitted l g s
    exact emittedSet_shift first.reads.emits (one ▸ first.room) (fun j => one ▸ first.entry j) k

theorem emitSets_emitted (l : LaneId) (g : GroupId) (n : Nat) (s : State) :
    SetsEmitted l g n s (emitSets l g n s).2 := by
  induction n generalizing s with
  | zero => exact SetsEmitted.none (Nat.zero_min _)
  | succ n ih =>
    have first := emitSet_emitted l g s
    have count : setReads l s 1 g + setReads l (emitSet l g s).2 n g = setReads l s (1 + n) g := by
      simp only [setReads, first.room]
      omega
    have step := first.trans (ih _) count
    rw [Nat.add_comm 1 n] at step
    exact step

theorem emitSets_eq (l : LaneId) (g : GroupId) (n : Nat) (s : State) :
    (emitSets l g n s).1 = ((List.range n).map (emittedSet l s g)).flatMap setWords := by
  induction n generalizing s with
  | zero => rfl
  | succ n ih =>
    show (emitSet l g s).1 ++ (emitSets l g n (emitSet l g s).2).1 = _
    rw [emitSet_first, ih, List.range_succ_eq_map, List.map_cons, List.flatMap_cons, List.map_map,
      emittedSet_next]
    rfl

/-! ## Cells (R48, R51) -/

/-- The cell that an emission on line `i` from `s` gives a group. -/
def emittedCell (l : LaneId) (c : FormatClass) (i : Nat) (s : State) (g : GroupId) : List LaneWord :=
  cellWords g (i == 0) ((List.range (cellSets c i)).map (emittedSet l s g))
    (lineTags (s.writers.look l) g i)

theorem emitCell_eq (l : LaneId) (c : FormatClass) (i : Nat) (g : GroupId) (s : State) :
    (emitCell l c i g s).1 = emittedCell l c i s g := by
  rw [emittedCell, cellWords_eq, checkWord, headerWord, bodyWords, ← emitSets_eq, ← emittedTags_eq,
    List.length_map, List.length_range]
  rfl

/-- State `t` is left by an emission from `s` of a cell of `n` sets for each of the groups `gs` (R48, R49). -/
structure CellsEmitted (l : LaneId) (gs : List GroupId) (n : Nat) (s t : State) : Prop where
  reads : ReadsEach (groupReads l gs (setReads l s n)) s t
  writers : t.writers = (modWriter l (emittedWriter gs n (setReads l s n)) s).writers

theorem groupReads_cons (l : LaneId) (g : GroupId) (gs : List GroupId) (r : GroupId → Nat)
    (d : DestId) : groupReads l (g :: gs) r d = groupReads l [g] r d + groupReads l gs r d := by
  simp [groupReads]

theorem groupReads_congr {l : LaneId} {gs : List GroupId} {r q : GroupId → Nat}
    (h : ∀ g ∈ gs, r g = q g) (d : DestId) : groupReads l gs r d = groupReads l gs q d :=
  congrArg List.sum (List.map_congr_left fun g hg => by rw [h g hg])

theorem groupReads_not_mem {l : LaneId} {g : GroupId} {gs : List GroupId} (r : GroupId → Nat)
    (h : g ∉ gs) (j : Fin 3) : groupReads l gs r (laneDest l (trackOf g j)) = 0 := by
  refine List.sum_eq_zero fun x hx => ?_
  obtain ⟨k, hk, rfl⟩ := List.mem_map.mp hx
  have apart : g ≠ k := fun e => h (e ▸ hk)
  rw [count_groupDests, if_neg apart, Nat.mul_zero]

theorem groupReads_mem {l : LaneId} {g : GroupId} {gs : List GroupId} (r : GroupId → Nat)
    (different : gs.Nodup) (h : g ∈ gs) (j : Fin 3) :
    groupReads l gs r (laneDest l (trackOf g j)) = r g := by
  induction gs with
  | nil => cases h
  | cons k gs ih =>
    obtain ⟨apart, different⟩ := List.nodup_cons.mp different
    rw [groupReads_cons]
    by_cases same : g = k
    · subst same
      rw [groupReads_not_mem r apart]
      simp [groupReads, count_groupDests]
    · rw [groupReads_not_mem r (by simpa using same), Nat.zero_add,
        ih different (List.mem_of_ne_of_mem same h)]

/-- A destination that is read belongs to a group that is read. -/
theorem exists_of_groupReads_ne {l : LaneId} {gs : List GroupId} {r : GroupId → Nat} {d : DestId}
    (h : groupReads l gs r d ≠ 0) : ∃ g ∈ gs, ∃ j, d = laneDest l (trackOf g j) := by
  by_contra none
  refine h (List.sum_eq_zero fun x hx => ?_)
  obtain ⟨g, hg, rfl⟩ := List.mem_map.mp hx
  have outside : d ∉ groupDests l g := fun inside => none ⟨g, hg, exists_of_mem_groupDests inside⟩
  rw [List.count_eq_zero.mpr outside, Nat.mul_zero]

section
variable {l : LaneId} {g : GroupId} {gs : List GroupId} {n : Nat} {s t : State}

/-- Cells of other groups leave what a group's cell is made of. -/
theorem CellsEmitted.other (h : CellsEmitted l gs n s t) (apart : g ∉ gs) :
    emittedSet l t g = emittedSet l s g ∧ (∀ m, setReads l t m g = setReads l s m g) := by
  have room : readRoom l t g = readRoom l s g := by
    obtain ⟨-, -, -, -, lanes⟩ := reading_of_emits h.reads.emits
    simp [readRoom, lanes, h.writers, emittedWriter, apart]
  refine ⟨funext fun k => emittedSet_shift (m := 0) h.reads.emits room (fun j => ?_) k, fun m => ?_⟩
  · rw [h.reads.entry, groupReads_not_mem _ apart]
  · rw [setReads, setReads, room]

theorem CellsEmitted.latched (h : CellsEmitted l gs n s t) :
    (t.writers.look l).latched = (s.writers.look l).latched := by
  rw [h.writers, modWriter_look_self, emittedWriter]

theorem CellsEmitted.nil (l : LaneId) (n : Nat) (s : State) : CellsEmitted l [] n s s where
  reads := ReadsEach.refl s
  writers := by
    have groups (w : Writer) : (Table.gen fun g => w.groups.look g) = w.groups :=
      Table.ext_look fun g => Table.look_gen _ g
    rw [modWriter_congr (h := fun w => w), modWriter_id]
    simp only [emittedWriter, List.not_mem_nil, if_false, groups]

theorem CellsEmitted.cons {u : State} (h : CellsEmitted l [g] n s t) (k : CellsEmitted l gs n t u)
    (apart : g ∉ gs) : CellsEmitted l (g :: gs) n s u := by
  have count (k : GroupId) (hk : k ∈ gs) : setReads l t n k = setReads l s n k :=
    (h.other fun own => apart (List.mem_singleton.mp own ▸ hk)).2 n
  refine ⟨(h.reads.trans k.reads).congr fun d => ?_, ?_⟩
  · rw [groupReads_congr count, ← groupReads_cons]
  · rw [k.writers, modWriter_writers h.writers, modWriter_modWriter]
    refine congrArg State.writers (modWriter_congr ?_)
    simp only [emittedWriter, Writer.mk.injEq, true_and, and_true]
    refine Table.ext_look fun k => ?_
    simp only [Table.look_gen, List.mem_cons, List.not_mem_nil, or_false]
    by_cases first : k = g
    · subst first
      simp [apart]
    · by_cases later : k ∈ gs
      · simp [first, later, count]
      · simp [first, later]

end

/-- One emitted cell (R48). -/
theorem emitCell_emitted (l : LaneId) (c : FormatClass) (i : Nat) (g : GroupId) (s : State) :
    CellsEmitted l [g] (cellSets c i) s (emitCell l c i g s).2 := by
  have sets := emitSets_emitted l g (cellSets c i) s
  refine ⟨(sets.reads.modWriter l _).congr fun d => ?_, ?_⟩
  · rw [groupReads, List.map_singleton, List.sum_singleton]
  · refine (modWriter_writers sets.writers l _).trans ?_
    rw [modWriter_modWriter]
    refine congrArg State.writers (modWriter_congr ?_)
    simp only [Writer.modGroup, put_put, Table.look_put_self, emittedWriter, Writer.mk.injEq, true_and,
      and_true]
    refine Table.ext_look fun k => ?_
    rw [Table.look_put, Table.look_gen]
    by_cases own : g = k
    · subst own
      simp
    · simp [own, Ne.symm own]

theorem emitCells_emitted (l : LaneId) (c : FormatClass) (i : Nat) {gs : List GroupId}
    (different : gs.Nodup) (s : State) :
    CellsEmitted l gs (cellSets c i) s (emitCells l c i gs s).2 := by
  induction gs generalizing s with
  | nil => exact CellsEmitted.nil l _ s
  | cons g gs ih =>
    obtain ⟨apart, different⟩ := List.nodup_cons.mp different
    exact (emitCell_emitted l c i g s).cons (ih different _) apart

/-- The emitted cells of a line (R45). -/
theorem emitCells_eq (l : LaneId) (c : FormatClass) (i : Nat) {gs : List GroupId}
    (different : gs.Nodup) (s : State) :
    (emitCells l c i gs s).1 = gs.flatMap (emittedCell l c i s) := by
  induction gs generalizing s with
  | nil => rfl
  | cons g gs ih =>
    obtain ⟨apart, different⟩ := List.nodup_cons.mp different
    have first := emitCell_emitted l c i g s
    have same (k : GroupId) (hk : k ∈ gs) :
        emittedCell l c i (emitCell l c i g s).2 k = emittedCell l c i s k := by
      have others := (first.other fun own => apart (List.mem_singleton.mp own ▸ hk)).1
      simp only [emittedCell, others, lineTags, first.latched]
    show (emitCell l c i g s).1 ++ (emitCells l c i gs (emitCell l c i g s).2).1 = _
    rw [emitCell_eq, ih different, List.flatMap_cons, List.flatMap_congr same]

end Sys2Proof.Machine.CellLines
end

section
/-! PROOFS. The places of a line (R46): which pass-through groups are carried, and whether a group is left out. -/

namespace Sys2Proof.Machine.CellLines

/-- The pass-through cells of a group among those handed on for a line. -/
def passCells (handed : List HandedCell) (g : GroupId) : List HandedCell :=
  handed.filter fun h => decide (h.group = g) && h.passThrough

/-- The groups that are carried where each takes `count` places: each that fits into the places left (R46). -/
def passedGroups (count : GroupId → Nat) : List GroupId → Nat → List GroupId
  | [], _ => []
  | g :: gs, places =>
    if count g ≤ places then g :: passedGroups count gs (places - count g)
    else passedGroups count gs places

section
variable (count : GroupId → Nat)

theorem passedGroups_sublist (gs : List GroupId) (places : Nat) :
    (passedGroups count gs places).Sublist gs := by
  induction gs generalizing places with
  | nil => exact List.Sublist.slnil
  | cons g gs ih =>
    rw [passedGroups]
    split
    · exact (ih _).cons_cons g
    · exact (ih _).cons g

/-- A group is carried where its cells fit beside those of the carried groups below it (R46). -/
theorem mem_passedGroups {gs : List GroupId} (rising : gs.Pairwise (· < ·)) (places : Nat)
    (g : GroupId) : g ∈ passedGroups count gs places ↔ g ∈ gs ∧
      (((passedGroups count gs places).filter fun h => decide (h < g)).map count).sum + count g ≤
        places := by
  induction gs generalizing places with
  | nil => simp [passedGroups]
  | cons a gs ih =>
    obtain ⟨least, rising⟩ := List.pairwise_cons.mp rising
    have noneBelow (p : Nat) : (passedGroups count gs p).filter (fun h => decide (h < a)) = [] :=
      List.filter_eq_nil_iff.mpr fun h hh => by
        simpa using (least h ((passedGroups_sublist count gs p).subset hh)).le
    rw [passedGroups]
    by_cases first : g = a
    · subst first
      have unlisted (p : Nat) : g ∉ passedGroups count gs p := fun hg =>
        (least g ((passedGroups_sublist count gs p).subset hg)).false
      split <;> simp [*]
    · by_cases listed : g ∈ gs
      · have below : a < g := least g listed
        split
        · simp [ih rising, first, listed, below]
          omega
        · simp [ih rising, first, listed]
      · split <;> simp [ih rising, first, listed]

end

theorem placePass_cons (handed : List HandedCell) (g : GroupId) (gs : List GroupId) (places : Nat) :
    placePass handed (g :: gs) places =
      if (passCells handed g).length ≤ places then
        (passCells handed g ++ (placePass handed gs (places - (passCells handed g).length)).1,
          (placePass handed gs (places - (passCells handed g).length)).2)
      else ((placePass handed gs places).1, true) := rfl

/-- The places of R46 are filled as `passedGroups` says, and a group is left out where not all are carried. -/
theorem placePass_eq (handed : List HandedCell) (gs : List GroupId) (places : Nat) :
    (placePass handed gs places).1 =
        (passedGroups (fun g => (passCells handed g).length) gs places).flatMap (passCells handed) ∧
      ((placePass handed gs places).2 = false ↔
        passedGroups (fun g => (passCells handed g).length) gs places = gs) := by
  induction gs generalizing places with
  | nil => exact ⟨rfl, by simp [placePass, passedGroups]⟩
  | cons g gs ih =>
    rw [placePass_cons, passedGroups]
    split
    · obtain ⟨cells, out⟩ := ih (places - (passCells handed g).length)
      simp only [cells, out, List.flatMap_cons, List.cons.injEq, true_and, and_self]
    · have short : passedGroups (fun g => (passCells handed g).length) gs places ≠ g :: gs := fun e => by
        have fewer := (passedGroups_sublist (fun g => (passCells handed g).length) gs places).length_le
        rw [e, List.length_cons] at fewer
        omega
      simp only [ih places, short, Bool.true_eq_false, and_self]

/-! ## The choice of a line -/

/-- The groups of the emit set that a line has room for (R46). -/
def lineGroups (c : FormatClass) (p : Plan) : List GroupId := (emitGroups p).take c.room

/-- The groups that are not in the emit set, ascending. -/
def restGroups (p : Plan) : List GroupId := (List.finRange 8).filter fun g => !p.emit.getLsbD g.val

/-- The pass-through groups that a line carries (R46). -/
def lineRest (c : FormatClass) (p : Plan) (handed : List HandedCell) : List GroupId :=
  passedGroups (fun g => (passCells handed g).length) (restGroups p)
    (c.room - (lineGroups c p).length)

section
variable (c : FormatClass) (p : Plan) (handed : List HandedCell)

theorem lineGroups_nodup : (lineGroups c p).Nodup :=
  ((List.nodup_finRange 8).filter _).take

theorem restGroups_rising : (restGroups p).Pairwise (· < ·) :=
  (List.sortedLT_finRange 8).pairwise.filter _

theorem mem_restGroups (g : GroupId) : g ∈ restGroups p ↔ p.emit.getLsbD g.val = false := by
  simp [restGroups]

theorem lineRest_sublist : (lineRest c p handed).Sublist (restGroups p) :=
  passedGroups_sublist _ _ _

/-- The carried groups, taken in ascending number. -/
theorem filter_lineRest :
    (List.finRange 8).filter (fun g => decide (g ∈ lineRest c p handed)) = lineRest c p handed :=
  ((List.sortedLT_finRange 8).pairwise.filter _).eq_of_mem_iff
    ((restGroups_rising p).sublist (lineRest_sublist c p handed)) fun g => by simp

/-- R46: a pass-through group is carried where all its cells fit into the places left. -/
theorem mem_lineRest (g : GroupId) : g ∈ lineRest c p handed ↔ p.emit.getLsbD g.val = false ∧
    (((List.finRange 8).filter fun h => decide (h < g) && decide (h ∈ lineRest c p handed)).map
      fun h => (passCells handed h).length).sum + (passCells handed g).length ≤
        c.room - (lineGroups c p).length := by
  rw [← List.filter_filter, filter_lineRest, ← mem_restGroups]
  exact mem_passedGroups _ (restGroups_rising p) _ g

theorem planLine_passed :
    (planLine c p handed).passed = (lineRest c p handed).flatMap (passCells handed) :=
  (placePass_eq handed (restGroups p) _).1

/-- R46: a group is left out beyond the room, or where its cells do not fit. -/
theorem planLine_leftOut : (planLine c p handed).leftOut = true ↔
    c.room < (emitGroups p).length ∨ ∃ g, p.emit.getLsbD g.val = false ∧ g ∉ lineRest c p handed := by
  have out : (placePass handed (restGroups p) (c.room - (lineGroups c p).length)).2 = true ↔
      ∃ g, p.emit.getLsbD g.val = false ∧ g ∉ lineRest c p handed := by
    rw [← Bool.not_eq_false, (placePass_eq handed _ _).2]
    constructor
    · intro fewer
      by_contra all
      refine fewer (((restGroups_rising p).sublist (lineRest_sublist c p handed)).eq_of_mem_iff
        (restGroups_rising p) fun g => ⟨fun hg => (lineRest_sublist c p handed).subset hg, fun hg => ?_⟩)
      by_contra missing
      exact all ⟨g, (mem_restGroups p g).mp hg, missing⟩
    · rintro ⟨g, passing, missing⟩ all
      exact missing (by rw [lineRest, all]; exact (mem_restGroups p g).mpr passing)
  rw [or_comm, ← out, ← decide_eq_true_iff (p := c.room < _), ← Bool.or_eq_true]
  rfl

end

end Sys2Proof.Machine.CellLines
end

section
/-! PROOFS. CELL_LINE: a line is built or carried (R44 to R49, R57, R169). -/

namespace Sys2Proof.Machine.CellLines

open SoundCells

/-! ## What the emitted cells of a line leave -/

section
variable {l : LaneId} {gs : List GroupId} {n : Nat} {s t : State}

theorem CellsEmitted.entry (h : CellsEmitted l gs n s t) (different : gs.Nodup) {g : GroupId}
    (emitted : g ∈ gs) (j : Fin 3) : t.entries.look (laneDest l (trackOf g j)) =
      entryAfter s (laneDest l (trackOf g j)) (setReads l s n g) := by
  rw [h.reads.entry, groupReads_mem _ different emitted]

theorem CellsEmitted.entry_other (h : CellsEmitted l gs n s t) {d : DestId}
    (unread : ∀ g ∈ gs, ∀ j, d ≠ laneDest l (trackOf g j)) : t.entries.look d = s.entries.look d := by
  have none : groupReads l gs (setReads l s n) d = 0 := by
    by_contra read
    obtain ⟨g, emitted, j, own⟩ := exists_of_groupReads_ne read
    exact unread g emitted j own
  rw [h.reads.entry, none]
  rfl

/-- R71: an emission sets SLIP of its lane where one of its reads slips, and no other flag. -/
theorem CellsEmitted.flag (h : CellsEmitted l gs n s t) (different : gs.Nodup) (f : FaultFlag) :
    flagSet t f = true ↔ flagSet s f = true ∨ (f = .slip l ∧ ∃ g ∈ gs, ∃ j,
      SlipsWithin s (laneDest l (trackOf g j)) (setReads l s n g)) := by
  rw [h.reads.flag]
  refine or_congr_right ⟨?_, ?_⟩
  · rintro ⟨d, own, slip⟩
    have read : groupReads l gs (setReads l s n) d ≠ 0 := fun none => by
      rw [none] at slip
      exact not_slipsWithin_zero s d slip
    obtain ⟨g, emitted, j, rfl⟩ := exists_of_groupReads_ne read
    rw [timingLane_laneDest] at own
    rw [groupReads_mem _ different emitted] at slip
    exact ⟨own, g, emitted, j, slip⟩
  · rintro ⟨own, g, emitted, j, slip⟩
    refine ⟨laneDest l (trackOf g j), ?_, ?_⟩
    · rw [own, timingLane_laneDest]
    · rwa [groupReads_mem _ different emitted]

end

/-- The samples of an emitted cell are those of its destinations' reads, and zeros beyond S (R49). -/
theorem readTimes_getD {l : LaneId} {s : State} {g : GroupId} {n k : Nat} (h : k < n) (j : Fin 3) :
    (readTimes (setReads l s n g) (laneDest l (trackOf g j)) s).1.getD k 0 =
      emittedSample l s g k j := by
  have within : k < setReads l s n g ↔ k < readRoom l s g := by simp [setReads, h]
  rw [readTimes_samples, emittedSample]
  by_cases read : k < readRoom l s g
  · simp [List.getD_eq_getElem?_getD, within.mpr read, read]
  · simp [List.getD_eq_getElem?_getD, mt within.mp read, read]

theorem emittedCell_eq (l : LaneId) (c : FormatClass) (i : Nat) (s : State) (g : GroupId) :
    emittedCell l c i s g = cellWords g (i == 0)
      ((List.range (cellSets c i)).map fun k =>
        let sample (j : Fin 3) :=
          (readTimes (setReads l s (cellSets c i) g) (laneDest l (trackOf g j)) s).1.getD k 0
        ⟨sample 0, sample 1, sample 2⟩)
      (lineTags (s.writers.look l) g i) := by
  refine congrArg (cellWords g (i == 0) · _) (List.map_congr_left fun k hk => ?_)
  simp only [readTimes_getD (List.mem_range.mp hk), emittedSet]

/-! ## Crowding (R47) -/

section
variable (l : LaneId) (s : State)

theorem crowd_writers :
    (crowd l s).writers = (modWriter l (fun w => { w with crowding := .thisFrame }) s).writers := by
  unfold crowd
  dsimp only
  split
  · obtain ⟨v, p, h⟩ := setFlag_frame (.crowded l)
      (modWriter l (fun w => { w with crowding := .thisFrame }) s)
    rw [h]
  · rfl

theorem crowd_entries : (crowd l s).entries = s.entries := by
  unfold crowd
  dsimp only
  split
  · obtain ⟨v, p, h⟩ := setFlag_frame (.crowded l)
      (modWriter l (fun w => { w with crowding := .thisFrame }) s)
    rw [h]
    rfl
  · rfl

theorem crowd_flag (f : FaultFlag) : flagSet (crowd l s) f = true ↔
    flagSet s f = true ∨ (f = .crowded l ∧ (s.writers.look l).crowding = .none) := by
  have same : flagSet (modWriter l (fun w => { w with crowding := .thisFrame }) s) f = flagSet s f := rfl
  unfold crowd
  dsimp only
  split
  · rename_i arises
    rw [flagSet_setFlag, same, Bool.or_eq_true, decide_eq_true_eq]
    simp only [arises, and_true]
  · rename_i holds
    rw [same]
    exact ⟨.inl, fun set => set.elim id fun ⟨_, arises⟩ => absurd arises holds⟩

end

/-! ## The line built (R45) -/

/-- Whether a cell line leaves out a group (R46). -/
def lineCrowds (l : LaneId) (c : FormatClass) (s : State) : Bool :=
  (planLine c (s.lanes.look l).plan (s.readers.look l).handed).leftOut

/-- The state that the emitted cells of a line leave. -/
def cellsLeft (l : LaneId) (c : FormatClass) (s : State) : State :=
  (emitCells l c (s.writers.look l).linePos (lineGroups c (s.lanes.look l).plan) s).2

/-- The state that the emitted cells and the crowding of a line leave, before the line is put out. -/
def lineLeft (l : LaneId) (c : FormatClass) (s : State) : State :=
  if lineCrowds l c s then crowd l (cellsLeft l c s) else cellsLeft l c s

/-- The blanking of a built line (R45). -/
def builtBlanking (l : LaneId) (c : FormatClass) (blanking : List LaneWord) (s : State) :
    List LaneWord :=
  ((lineGroups c (s.lanes.look l).plan).flatMap (emittedCell l c (s.writers.look l).linePos s) ++
    (lineRest c (s.lanes.look l).plan (s.readers.look l).handed).flatMap (fun g =>
      (passCells (s.readers.look l).handed g).flatMap HandedCell.words) ++
    otherWords blanking.length blanking ++ List.replicate blanking.length 0x300).take blanking.length

theorem buildLine_eq (l : LaneId) (c : FormatClass) (line : FeedLine) (s : State) :
    buildLine l c line s = modLane l (fun n => { n with
      output := { line with blanking := builtBlanking l c line.blanking s } }) (lineLeft l c s) := by
  have cells := emitCells_eq l c (s.writers.look l).linePos (lineGroups_nodup c (s.lanes.look l).plan) s
  have passed := planLine_passed c (s.lanes.look l).plan (s.readers.look l).handed
  rw [builtBlanking, ← cells, ← List.flatMap_assoc, ← passed]
  rfl

/-- The writer after a built line, before the line is counted (R47 to R49). -/
def builtWriter (l : LaneId) (c : FormatClass) (s : State) (w : Writer) : Writer :=
  { emittedWriter (lineGroups c (s.lanes.look l).plan) (cellSets c (s.writers.look l).linePos)
      (setReads l s (cellSets c (s.writers.look l).linePos)) w with
    crowding := if lineCrowds l c s then .thisFrame else w.crowding }

section
variable (l : LaneId) (c : FormatClass) (s : State)

theorem lineCrowds_iff : lineCrowds l c s = true ↔
    c.room < (emitGroups (s.lanes.look l).plan).length ∨
      ∃ g, (s.lanes.look l).plan.emit.getLsbD g.val = false ∧
        g ∉ lineRest c (s.lanes.look l).plan (s.readers.look l).handed :=
  planLine_leftOut _ _ _

theorem cellsLeft_emitted : CellsEmitted l (lineGroups c (s.lanes.look l).plan)
    (cellSets c (s.writers.look l).linePos) s (cellsLeft l c s) :=
  emitCells_emitted l c _ (lineGroups_nodup _ _) s

theorem lineLeft_emits : Emits s (lineLeft l c s) := by
  have cells := (cellsLeft_emitted l c s).reads.emits
  unfold lineLeft
  split
  · exact Emits.trans _ _ _ cells (crowd_emits l _)
  · exact cells

theorem lineLeft_entries : (lineLeft l c s).entries = (cellsLeft l c s).entries := by
  unfold lineLeft
  split
  · exact crowd_entries l _
  · rfl

theorem lineLeft_writers :
    (lineLeft l c s).writers = (modWriter l (builtWriter l c s) s).writers := by
  have cells := (cellsLeft_emitted l c s).writers
  unfold lineLeft
  split
  · rename_i crowds
    rw [crowd_writers, modWriter_writers cells, modWriter_modWriter]
    refine congrArg State.writers (modWriter_congr ?_)
    rw [builtWriter, if_pos crowds]
  · rename_i roomy
    rw [cells]
    refine congrArg State.writers (modWriter_congr ?_)
    rw [builtWriter, if_neg roomy]
    rfl

/-- R47, R71: a built line sets SLIP where a read slips and CROWDED where the condition arises. -/
theorem lineLeft_flag (f : FaultFlag) : flagSet (lineLeft l c s) f = true ↔
    (flagSet s f = true ∨ (f = .slip l ∧ ∃ g ∈ lineGroups c (s.lanes.look l).plan, ∃ j,
      SlipsWithin s (laneDest l (trackOf g j))
        (setReads l s (cellSets c (s.writers.look l).linePos) g))) ∨
    (f = .crowded l ∧ lineCrowds l c s = true ∧ (s.writers.look l).crowding = .none) := by
  have cells := cellsLeft_emitted l c s
  have crowding : ((cellsLeft l c s).writers.look l).crowding = (s.writers.look l).crowding := by
    rw [cells.writers, modWriter_look_self, emittedWriter]
  rw [← cells.flag (lineGroups_nodup _ _), ← crowding]
  unfold lineLeft
  split
  · rename_i crowds
    rw [crowd_flag]
    simp only [crowds, true_and]
  · rename_i roomy
    exact ⟨.inl, fun set => set.elim id fun ⟨_, crowds, _⟩ => absurd crowds roomy⟩

end

/-! ## The meaning of CELL_LINE -/

theorem exec_cellLine (l : LaneId) (line : FeedLine) (s : State) :
    exec (.cellLine l line) s = .next (cellLine l line s) := rfl

section
variable {l : LaneId} {line : FeedLine} {s : State}

theorem cellLine_heldReset (h : s.phase = .heldReset) : cellLine l line s = carryLine l line s := by
  rw [cellLine, h]

theorem cellLine_awake (h : awake s = true) : cellLine l line s =
    if line.cellRegion then countLine l (putLine l line s) else carryLine l line s := by
  unfold cellLine
  cases phase : s.phase <;> simp [awake, phase] at h ⊢

theorem putLine_build {c : FormatClass} (run : (s.lanes.look l).state = .run)
    (parsing : (s.readers.look l).parsing = true) (cls : (s.lanes.look l).expected = some c)
    (inside : (s.writers.look l).linePos < c.cellLines) : putLine l line s = buildLine l c line s := by
  simp only [putLine, cls, run, parsing, inside, and_self, if_true]

theorem lineLimit_some {n : Lane} {c : FormatClass} (h : n.expected = some c) :
    n.lineLimit = c.cellLines := by
  rw [Lane.lineLimit, h]

theorem putLine_carry (h : (s.lanes.look l).state ≠ .run ∨ (s.readers.look l).parsing = false ∨
    (s.lanes.look l).expected = none ∨ (s.lanes.look l).lineLimit ≤ (s.writers.look l).linePos) :
    putLine l line s = carryLine l line s := by
  unfold putLine
  split
  · rename_i c cls
    rw [if_neg]
    rintro ⟨run, parsing, inside⟩
    rw [lineLimit_some cls] at h
    rcases h with off | deaf | classless | beyond
    · exact off run
    · rw [parsing] at deaf
      cases deaf
    · rw [cls] at classless
      cases classless
    · omega
  · rfl

/-- A line of the cell region that is carried is counted (R4, R48). -/
theorem countLine_carryLine (l : LaneId) (line : FeedLine) (s : State) :
    countLine l (carryLine l line s) =
      modLane l (fun n => { n with output := line, inputLines := n.inputLines + 1 })
        (modReader l (fun r => { r with handed := [] })
          (modWriter l (Writer.lineCounted (s.lanes.look l).lineLimit) s)) := by
  simp [countLine, carryLine, modLane, modReader, modWriter, put_put, Lane.lineLimit]

end

/-! ## The state after a built line -/

/-- The state after a built line, which is counted too (R4, R45, R48). -/
def builtState (l : LaneId) (c : FormatClass) (line : FeedLine) (s : State) : State :=
  modLane l (fun n => { n with
      inputLines := n.inputLines + 1
      output := { line with blanking := builtBlanking l c line.blanking s } })
    (modReader l (fun r => { r with handed := [] })
      (modWriter l (Writer.lineCounted c.cellLines) (lineLeft l c s)))

section
variable (l : LaneId) (c : FormatClass) (line : FeedLine) (s : State)

theorem lineLeft_lanes : (lineLeft l c s).lanes = s.lanes := by
  obtain ⟨w, e, v, p, h⟩ := lineLeft_emits l c s
  rw [h]

theorem lineLeft_readers : (lineLeft l c s).readers = s.readers := by
  obtain ⟨w, e, v, p, h⟩ := lineLeft_emits l c s
  rw [h]

theorem countLine_buildLine (cls : (s.lanes.look l).expected = some c) :
    countLine l (buildLine l c line s) = builtState l c line s := by
  have limit := lineLimit_some cls
  rw [Lane.lineLimit] at limit
  rw [buildLine_eq, builtState]
  simp [countLine, modLane, modReader, modWriter, put_put, Lane.lineLimit, lineLeft_lanes, limit]

theorem builtState_frame : builtState l c line s = { s with
    lanes := (builtState l c line s).lanes, readers := (builtState l c line s).readers,
    writers := (builtState l c line s).writers, entries := (builtState l c line s).entries,
    flags := (builtState l c line s).flags, ports := (builtState l c line s).ports } := by
  obtain ⟨w, e, v, p, h⟩ := lineLeft_emits l c s
  rw [builtState, h]
  rfl

theorem builtState_lane : (builtState l c line s).lanes.look l = { s.lanes.look l with
    inputLines := (s.lanes.look l).inputLines + 1
    output := { line with blanking := builtBlanking l c line.blanking s } } := by
  rw [builtState, modLane_look_self, modReader_lanes, modWriter_lanes, lineLeft_lanes]

theorem builtState_handed : ((builtState l c line s).readers.look l).handed = [] := by
  rw [builtState, modLane_readers, modReader_look_self]

theorem builtState_writer : (builtState l c line s).writers.look l =
    (builtWriter l c s (s.writers.look l)).lineCounted c.cellLines := by
  rw [builtState, modLane_writers, modReader_writers, modWriter_look_self, lineLeft_writers,
    modWriter_look_self]

theorem builtState_group (g : GroupId) : ((builtState l c line s).writers.look l).groups.look g =
    if g ∈ lineGroups c (s.lanes.look l).plan then
      ⟨((s.writers.look l).groups.look g).emitted + cellSets c (s.writers.look l).linePos,
        ((s.writers.look l).groups.look g).reads +
          setReads l s (cellSets c (s.writers.look l).linePos) g⟩
    else (s.writers.look l).groups.look g := by
  rw [builtState_writer]
  exact Table.look_gen _ g

theorem builtState_linePos (inside : (s.writers.look l).linePos < c.cellLines) :
    ((builtState l c line s).writers.look l).linePos = (s.writers.look l).linePos + 1 := by
  rw [builtState_writer]
  exact if_pos inside

theorem builtState_crowding : ((builtState l c line s).writers.look l).crowding =
    if lineCrowds l c s then .thisFrame else (s.writers.look l).crowding := by
  rw [builtState_writer]
  rfl

theorem builtState_entry {g : GroupId} (emitted : g ∈ lineGroups c (s.lanes.look l).plan) (j : Fin 3) :
    (builtState l c line s).entries.look (laneDest l (trackOf g j)) =
      (readTimes (setReads l s (cellSets c (s.writers.look l).linePos) g)
        (laneDest l (trackOf g j)) s).2.entries.look (laneDest l (trackOf g j)) := by
  rw [builtState, modLane_entries, modReader_entries, modWriter_entries, lineLeft_entries,
    (cellsLeft_emitted l c s).entry (lineGroups_nodup _ _) emitted, readTimes_entry]

theorem builtState_entry_other {d : DestId}
    (unread : ∀ g ∈ lineGroups c (s.lanes.look l).plan, ∀ j, d ≠ laneDest l (trackOf g j)) :
    (builtState l c line s).entries.look d = s.entries.look d := by
  rw [builtState, modLane_entries, modReader_entries, modWriter_entries, lineLeft_entries,
    (cellsLeft_emitted l c s).entry_other unread]

theorem builtState_flag (f : FaultFlag) :
    flagSet (builtState l c line s) f = flagSet (lineLeft l c s) f := by
  rw [flagSet, flagSet, builtState, modLane_flags, modReader_flags, modWriter_flags]

theorem builtState_crowded : flagSet (builtState l c line s) (.crowded l) = true ↔
    flagSet s (.crowded l) = true ∨
      (lineCrowds l c s = true ∧ (s.writers.look l).crowding = .none) := by
  rw [builtState_flag, lineLeft_flag]
  simp

/-- R71: SLIP after a built line. -/
theorem builtState_slip : flagSet (builtState l c line s) (.slip l) = true ↔
    flagSet s (.slip l) = true ∨ ∃ g ∈ lineGroups c (s.lanes.look l).plan, ∃ j,
      flagSet (readTimes (setReads l s (cellSets c (s.writers.look l).linePos) g)
        (laneDest l (trackOf g j)) s).2 (.slip l) = true := by
  have read (g : GroupId) (j : Fin 3) (n : Nat) :
      flagSet (readTimes n (laneDest l (trackOf g j)) s).2 (.slip l) = true ↔
        flagSet s (.slip l) = true ∨ SlipsWithin s (laneDest l (trackOf g j)) n := by
    have slip := readTimes_slip n (laneDest l (trackOf g j)) s
    rwa [timingLane_laneDest] at slip
  rw [builtState_flag, lineLeft_flag]
  by_cases before : flagSet s (.slip l) = true <;> simp [read, before]

theorem builtState_flag_other {f : FaultFlag} (crowded : f ≠ .crowded l) (slip : f ≠ .slip l) :
    flagSet (builtState l c line s) f = flagSet s f := by
  rw [builtState_flag, Bool.eq_iff_iff, lineLeft_flag]
  simp [crowded, slip]

theorem builtState_other {k : LaneId} (other : k ≠ l) :
    (builtState l c line s).lanes.look k = s.lanes.look k ∧
    (builtState l c line s).readers.look k = s.readers.look k ∧
    (builtState l c line s).writers.look k = s.writers.look k := by
  simp [builtState, lineLeft_lanes, lineLeft_readers, lineLeft_writers, other.symm]

/-- R47: a line that leaves out a group makes the lane CROWDED, and sets the flag where it was not. -/
theorem builtState_crowds (crowds : lineCrowds l c s = true) :
    ((builtState l c line s).writers.look l).crowding = .thisFrame ∧
    ((s.writers.look l).crowding = .none → flagSet (builtState l c line s) (.crowded l) = true) ∧
    ((s.writers.look l).crowding ≠ .none →
      flagSet (builtState l c line s) (.crowded l) = flagSet s (.crowded l)) := by
  refine ⟨?_, fun arises => ?_, fun holds => ?_⟩
  · rw [builtState_crowding, if_pos crowds]
  · exact (builtState_crowded l c line s).mpr (.inr ⟨crowds, arises⟩)
  · rw [Bool.eq_iff_iff, builtState_crowded]
    simp only [holds, and_false, or_false]

theorem builtState_roomy (roomy : ¬ lineCrowds l c s = true) :
    ((builtState l c line s).writers.look l).crowding = (s.writers.look l).crowding ∧
    flagSet (builtState l c line s) (.crowded l) = flagSet s (.crowded l) := by
  refine ⟨?_, ?_⟩
  · rw [builtState_crowding, if_neg roomy]
  · rw [Bool.eq_iff_iff, builtState_crowded]
    simp [roomy]

end

/-- CELL_LINE on a cell line of a lane that builds (R45). -/
theorem cellLine_built {l : LaneId} {line : FeedLine} {s : State} {c : FormatClass}
    (running : awake s = true) (region : line.cellRegion = true) (run : (s.lanes.look l).state = .run)
    (parsing : (s.readers.look l).parsing = true) (cls : (s.lanes.look l).expected = some c)
    (inside : (s.writers.look l).linePos < c.cellLines) :
    cellLine l line s = builtState l c line s := by
  rw [cellLine_awake running, if_pos region, putLine_build run parsing cls inside,
    countLine_buildLine l c line s cls]

/-- What a line leaves of the words that belong to no sound cell, word by word (R40). -/
theorem otherWords_step (w : LaneWord) (ws : List LaneWord) :
    let other (v : List LaneWord) : List LaneWord := otherWords v.length v
    other [] = [] ∧
    (scanCell (w :: ws) = .noPair → other (w :: ws) = w :: other ws) ∧
    (scanCell (w :: ws) = .other → other (w :: ws) = (w :: ws).take 3 ++ other ((w :: ws).drop 3)) ∧
    (∀ len, scanCell (w :: ws) = .discarded len → other (w :: ws) = other ((w :: ws).drop len)) ∧
    (∀ c, scanCell (w :: ws) = .valid c →
      other (w :: ws) = other ((w :: ws).drop c.words.length)) := by
  refine ⟨rfl, otherWords_noPair, fun scan => ?_, fun len scan => ?_, fun c scan => ?_⟩
  · exact (otherWords_other scan).trans (by rw [otherWords_drop w ws (by omega)])
  · exact (otherWords_discarded scan).trans (otherWords_drop w ws (scanCell_discarded_pos scan))
  · exact (otherWords_valid scan).trans (otherWords_drop w ws (scanCell_valid_pos scan))

/-- Settles O56: `otherWords_step` for the other words, `countLine_carryLine` for a line that leaves as it came,
and `cellLine_built` for a built one, its parts by the lemmas about `builtState` and `lineRest`. -/
theorem cellLineIsBuiltOrCarried : Obligations.CellLineIsBuiltOrCarried := by
  refine ⟨otherWords_step, fun l line s => ⟨?outside, ?carried, ?built⟩⟩
  case outside =>
    rintro (held | ⟨running, outside⟩)
    · rw [exec_cellLine, cellLine_heldReset held]
      rfl
    · rw [exec_cellLine, cellLine_awake running, if_neg (by rw [outside]; decide)]
      rfl
  case carried =>
    intro running region idle
    rw [exec_cellLine, cellLine_awake running, if_pos region, putLine_carry idle, countLine_carryLine]
    rfl
  case built =>
    intro c running region run parsing cls inside wanted emitted cellsOf sets reads sample cell
    have built := cellLine_built running region run parsing cls inside
    have tells := (cellLine_tells l line s).1
    have cells : emittedCell l c (s.writers.look l).linePos s = cell :=
      funext fun g => emittedCell_eq l c _ s g
    rw [exec_cellLine]
    rw [built] at tells ⊢
    refine ⟨_, fun g => decide (g ∈ lineRest c (s.lanes.look l).plan (s.readers.look l).handed), rfl,
      builtState_frame l c line s, fun g => ?kept, ?lane, builtState_linePos l c line s inside,
      builtState_handed l c line s, builtState_group l c line s,
      fun g member => builtState_entry l c line s member,
      fun d => builtState_entry_other l c line s, fun leftOut => ?crowded, fun few all => ?roomy,
      builtState_slip l c line s, fun f => builtState_flag_other l c line s, tells,
      fun k => builtState_other l c line s⟩
    case kept =>
      rw [decide_eq_true_iff]
      exact mem_lineRest c _ _ g
    case lane =>
      rw [builtState_lane, filter_lineRest, builtBlanking, cells]
      rfl
    case crowded =>
      refine builtState_crowds l c line s ((lineCrowds_iff l c s).mpr (leftOut.imp id ?_))
      exact fun ⟨g, passing, missing⟩ => ⟨g, passing, of_decide_eq_false missing⟩
    case roomy =>
      refine builtState_roomy l c line s fun crowds => ?_
      rcases (lineCrowds_iff l c s).mp crowds with many | ⟨g, passing, missing⟩
      · exact Nat.not_lt.mpr few many
      · exact missing (of_decide_eq_true (all g passing))

end Sys2Proof.Machine.CellLines
end

section
/-! PROOFS. Samples written into the sources of an audio port (R59, R63): each write index moves on by 1, the
sample stands where the index was, and every other address and index is as before. -/

namespace Sys2Proof.Machine.PortRings

/-! ## The rings of a port (R1) -/

@[simp] theorem sapRing_inj {p q : SapId} {j k : Fin 16} :
    sapRing p j = sapRing q k ↔ p = q ∧ j = k := by
  simp only [sapRing, Fin.ext_iff]
  omega

theorem laneRing_ne_sapRing (l : LaneId) (t : TrackId) (p : SapId) (k : Fin 16) :
    laneRing l t ≠ sapRing p k := by
  simp only [laneRing, sapRing, ne_eq, Fin.mk.injEq]
  omega

/-! ## Samples written in slot order (R63) -/

/-- The address at which slot `k` of a port is written next (R59). -/
def slotAddr (p : SapId) (s : State) (k : Fin 16) : Nat :=
  ringAddr (sapRing p k) (s.writeIndex.look (sapRing p k))

theorem slotAddr_ne {p : SapId} {j k : Fin 16} (s t : State) (h : j ≠ k) :
    slotAddr p s j ≠ slotAddr p t k :=
  SoundCells.ringAddr_ne_of_ring_ne _ _ fun same => h (sapRing_inj.mp same).2

theorem writeSample_index_other {r q : RingId} (x : Sample) (s : State) (h : q ≠ r) :
    (writeSample r x s).writeIndex.look q = s.writeIndex.look q := by
  simp [writeSample, h.symm]

theorem writeSample_slotAddr {p : SapId} {j k : Fin 16} (x : Sample) (s : State) (h : j ≠ k) :
    slotAddr p (writeSample (sapRing p k) x s) j = slotAddr p s j := by
  rw [slotAddr, writeSample_index_other x s (by simpa using h), slotAddr]

/-- State `t` is left by one sample written from `s` into the source of each slot of `ks`. -/
structure SlotsWritten (p : SapId) (xs : Table Sample 16) (ks : List (Fin 16)) (s t : State) : Prop where
  index : ∀ k ∈ ks, t.writeIndex.look (sapRing p k) = s.writeIndex.look (sapRing p k) + 1
  index_other : ∀ r, (∀ k ∈ ks, r ≠ sapRing p k) → t.writeIndex.look r = s.writeIndex.look r
  wf : SampleStore.wf s.mem → SampleStore.wf t.mem
  read : SampleStore.wf s.mem → ∀ k ∈ ks, storeRead t.mem (slotAddr p s k) = xs.look k
  read_other : ∀ a, (∀ k ∈ ks, a ≠ slotAddr p s k) → storeRead t.mem a = storeRead s.mem a

theorem SlotsWritten.nil (p : SapId) (xs : Table Sample 16) (s : State) :
    SlotsWritten p xs [] s s where
  index _ none := absurd none List.not_mem_nil
  index_other _ _ := rfl
  wf := id
  read _ _ none := absurd none List.not_mem_nil
  read_other _ _ := rfl

/-- Only rings and write indices count. -/
theorem SlotsWritten.congr {p : SapId} {xs : Table Sample 16} {ks : List (Fin 16)} {s t u v : State}
    (h : SlotsWritten p xs ks s t) (mem : u.mem = s.mem) (index : u.writeIndex = s.writeIndex)
    (mem' : v.mem = t.mem) (index' : v.writeIndex = t.writeIndex) : SlotsWritten p xs ks u v := by
  have addr : slotAddr p u = slotAddr p s := by
    funext k
    rw [slotAddr, index, slotAddr]
  constructor
  case index => rw [index, index']; exact h.index
  case index_other => rw [index, index']; exact h.index_other
  case wf => rw [mem, mem']; exact h.wf
  case read => rw [mem, mem', addr]; exact h.read
  case read_other => rw [mem, mem', addr]; exact h.read_other

/-- A slot written first, then others. -/
theorem SlotsWritten.cons {p : SapId} {xs : Table Sample 16} {k : Fin 16} {ks : List (Fin 16)}
    {s t : State} (apart : k ∉ ks)
    (h : SlotsWritten p xs ks (writeSample (sapRing p k) (xs.look k) s) t) :
    SlotsWritten p xs (k :: ks) s t := by
  have ne_of_mem : ∀ j ∈ ks, j ≠ k := fun j mem same => apart (same ▸ mem)
  constructor
  case index =>
    intro j mem
    rcases List.mem_cons.mp mem with rfl | mem
    · rw [h.index_other _ fun i later => by simpa using (ne_of_mem i later).symm, writeSample_index]
    · rw [h.index j mem, writeSample_index_other _ _ (by simpa using ne_of_mem j mem)]
  case index_other =>
    intro r other
    rw [h.index_other r fun j mem => other j (List.mem_cons_of_mem k mem),
      writeSample_index_other _ _ (other k List.mem_cons_self)]
  case wf => exact fun wf => h.wf (writeSample_wf _ _ wf)
  case read =>
    intro wf j mem
    rcases List.mem_cons.mp mem with rfl | mem
    · rw [h.read_other _ fun i later => slotAddr_ne _ _ (ne_of_mem i later).symm]
      exact storeRead_storeWrite_self _ _ wf
    · rw [← writeSample_slotAddr _ s (ne_of_mem j mem)]
      exact h.read (writeSample_wf _ _ wf) j mem
  case read_other =>
    intro a other
    rw [h.read_other a fun j mem => by
      rw [writeSample_slotAddr _ s (ne_of_mem j mem)]
      exact other j (List.mem_cons_of_mem k mem)]
    exact storeRead_storeWrite_ne _ (other k List.mem_cons_self)

theorem foldl_writeSample_written (p : SapId) (xs : Table Sample 16) {ks : List (Fin 16)}
    (different : ks.Nodup) (s : State) : SlotsWritten p xs ks s
      (ks.foldl (fun s k => writeSample (sapRing p k) (xs.look k) s) s) := by
  induction ks generalizing s with
  | nil => exact SlotsWritten.nil p xs s
  | cons k ks ih =>
    obtain ⟨apart, different⟩ := List.nodup_cons.mp different
    exact SlotsWritten.cons apart (ih different _)

/-- R63: one sample written into each of a port's 16 sources. -/
theorem writeSlots_written (p : SapId) (xs : Table Sample 16) (s : State) :
    SlotsWritten p xs (List.finRange 16) s (writeSlots p xs s) :=
  foldl_writeSample_written p xs (List.nodup_finRange 16) s

end Sys2Proof.Machine.PortRings
end

section
/-! PROOFS. Every step keeps the Sample Store's canonical form and one write index per port (R59, R63): which
operations touch the rings at all, and what those leave of a port's 16 write indices. -/

namespace Sys2Proof.Machine.StoreKept

open PortRings

/-- From `s` to `t` the form of the Sample Store is kept. -/
structure KeepsStore (s t : State) : Prop where
  form : StoreForm s → StoreForm t

theorem KeepsStore.refl (s : State) : KeepsStore s s := ⟨id⟩

theorem KeepsStore.trans (s t u : State) (h : KeepsStore s t) (k : KeepsStore t u) : KeepsStore s u :=
  ⟨fun form => k.form (h.form form)⟩

/-- Rings and write indices as they were. -/
theorem KeepsStore.same {s t : State} (mem : t.mem = s.mem) (index : t.writeIndex = s.writeIndex) :
    KeepsStore s t := ⟨fun ⟨wf, shared⟩ => ⟨mem ▸ wf, index ▸ shared⟩⟩

/-- First a change of other blocks, which the goal names, then an operation that keeps the form. -/
theorem KeepsStore.after {s t u : State} (k : KeepsStore t u) (mem : t.mem = s.mem)
    (index : t.writeIndex = s.writeIndex) : KeepsStore s u := .trans s t u (.same mem index) k

/-- First an operation that keeps the form, then a change of other blocks. -/
theorem KeepsStore.before {s t u : State} (h : KeepsStore s t) (mem : u.mem = t.mem)
    (index : u.writeIndex = t.writeIndex) : KeepsStore s u := .trans s t u h (.same mem index)

theorem KeepsStore.foldl {α : Type} (f : State → α → State) (h : ∀ s a, KeepsStore s (f s a))
    (l : List α) (s : State) : KeepsStore s (l.foldl f s) :=
  foldl_relates _ KeepsStore.refl KeepsStore.trans f h l s

/-! ## Operations that touch no ring -/

theorem KeepsStore.ofMoves {s t : State} (h : MovesEntries s t) : KeepsStore s t := by
  obtain ⟨e, v, p, rfl⟩ := h
  exact .same rfl rfl

theorem KeepsStore.ofLane {s t : State} (h : ChangesLane s t) : KeepsStore s t := by
  obtain ⟨l, r, w, k, g, p, v, rfl⟩ := h
  exact .same rfl rfl

theorem KeepsStore.ofGives {s t : State} (h : GivesUp s t) : KeepsStore s t := by
  obtain ⟨i, k, g, p, rfl⟩ := h
  exact .same rfl rfl

theorem KeepsStore.ofLoses {s t : State} (h : LosesPort s t) : KeepsStore s t := by
  obtain ⟨i, k, g, p, v, rfl⟩ := h
  exact .same rfl rfl

theorem KeepsStore.ofClears {s t : State} (h : ClearsFlags s t) : KeepsStore s t := by
  obtain ⟨v, p, f, rfl⟩ := h
  exact .same rfl rfl

section
variable (s : State)

theorem modLane_keeps (l : LaneId) (f : Lane → Lane) : KeepsStore s (modLane l f s) := .same rfl rfl

theorem modReader_keeps (l : LaneId) (f : Reader → Reader) : KeepsStore s (modReader l f s) :=
  .same rfl rfl

theorem modWriter_keeps (l : LaneId) (f : Writer → Writer) : KeepsStore s (modWriter l f s) :=
  .same rfl rfl

theorem modTake_keeps (l : LaneId) (f : TakeUnit → TakeUnit) : KeepsStore s (modTake l f s) :=
  .same rfl rfl

theorem modSap_keeps (p : SapId) (f : Sap → Sap) : KeepsStore s (modSap p f s) := .same rfl rfl

end

theorem setFlag_keeps (f : FaultFlag) (s : State) : KeepsStore s (setFlag f s) :=
  .ofLane (setFlag_changes f s)

theorem endChanges_keeps (cs : List Change) (s : State) : KeepsStore s (endChanges cs s) := by
  obtain ⟨g, h⟩ := endChanges_frame cs s
  rw [h]
  exact .same rfl rfl

/-! ## Writes into the rings -/

/-- A write into the source of a lane leaves the ports' indices (R29, R59). -/
theorem writeSample_laneRing_keeps (l : LaneId) (t : TrackId) (x : Sample) (s : State) :
    KeepsStore s (writeSample (laneRing l t) x s) := by
  refine ⟨fun ⟨wf, shared⟩ => ⟨writeSample_wf _ _ wf, fun p k => ?_⟩⟩
  rw [writeSample_index_other x s (laneRing_ne_sapRing l t p k).symm,
    writeSample_index_other x s (laneRing_ne_sapRing l t p 0).symm, shared]

/-- A padding of the source of a lane leaves the ports' indices (R31). -/
theorem padSource_laneRing_keeps (l : LaneId) (t : TrackId) (n : Nat) (s : State) :
    KeepsStore s (padSource (laneRing l t) n s) := by
  refine ⟨fun ⟨wf, shared⟩ => ⟨padSource_wf _ _ wf, fun p k => ?_⟩⟩
  simp only [padSource, Table.look_put_ne _ _ (laneRing_ne_sapRing l t p _), shared p k]

/-- A port's 16 sources are written together, so their indices stay one (R63). -/
theorem writeSlots_keeps (p : SapId) (xs : Table Sample 16) (s : State) :
    KeepsStore s (writeSlots p xs s) := by
  have written := writeSlots_written p xs s
  refine ⟨fun ⟨wf, shared⟩ => ⟨written.wf wf, fun q k => ?_⟩⟩
  by_cases own : q = p
  · subst own
    rw [written.index k (List.mem_finRange k), written.index 0 (List.mem_finRange 0), shared]
  · rw [written.index_other _ fun j _ => by simp [own], written.index_other _ fun j _ => by simp [own],
      shared]

/-- At the reset every ring is empty and every write index 0 (R59). -/
theorem blockReset_keeps (s : State) (pending : List Instr) (now choices : Nat) (phase : Phase)
    (low : Bool) (senior : Option CpId) (store : StoreContent) :
    KeepsStore s (State.blockReset pending now choices phase low senior store) :=
  ⟨fun _ => ⟨SampleStore.wf_nil, fun p k => by simp only [State.blockReset, Table.look_fill]⟩⟩

/-! ## Sound cells and lines -/

theorem takeSet_keeps (l : LaneId) (g : GroupId) (x : SampleSet) (s : State) :
    KeepsStore s (takeSet l g x s) := by
  have write (t : TrackId) (x : Sample) (u : State) := writeSample_laneRing_keeps l t x u
  unfold takeSet
  refine ite_relates _ _ _ _ _ (.same rfl rfl) ?_
  exact .before
    (.trans _ _ _ (.trans _ _ _ (write _ x.first s) (write _ x.second _)) (write _ x.third _)) rfl rfl

theorem soundCell_keeps (l : LaneId) (words : List LaneWord) (s : State) :
    KeepsStore s (soundCell l words s) := by
  unfold soundCell
  refine ite_relates _ _ _ _ _ ?_ (.refl s)
  split
  · exact .refl s
  · exact .refl s
  · exact .after (setFlag_keeps _ _) rfl rfl
  · rename_i c _
    exact .before (.foldl _ (fun s x => takeSet_keeps l c.group x s) c.sets s) rfl rfl

theorem cellLine_keeps (l : LaneId) (line : FeedLine) (s : State) :
    KeepsStore s (cellLine l line s) := by
  obtain ⟨n, r, w, e, v, p, h⟩ := cellLine_frame l line s
  rw [h]
  exact .same rfl rfl

/-! ## Frames of a lane -/

/-- R31, R50: the frame that ends pads the lane's sources. -/
theorem closeFrame_keeps (l : LaneId) (s : State) : KeepsStore s (closeFrame l s) := by
  have pad : KeepsStore s ((List.finRange 24).foldl (fun s t => settleTrack l t s) s) :=
    .foldl _ (fun s t => padSource_laneRing_keeps l t _ s) _ s
  have settle : KeepsStore s (settleFrame l s) := by
    unfold settleFrame
    exact .trans _ _ _ (ite_relates _ _ _ _ _ (.trans _ _ _ pad (setFlag_keeps _ _)) pad)
      (modReader_keeps _ l _)
  have complete (u : State) : KeepsStore u (completeFrame l u) := by
    unfold completeFrame
    exact .trans _ _ _ (.foldl _ (fun s t => .ofMoves (silentAdvance_frame _ _ s)) _ u)
      (modWriter_keeps _ l _)
  exact .trans _ _ _ settle (complete _)

/-- R8: a frame start, whole. -/
theorem frameStart_keeps (l : LaneId) (s : State) : KeepsStore s (frameStart l s) := by
  have evaluate (u : State) : KeepsStore u (evaluateFrame l u) := modReader_keeps u l _
  have latch (v u : State) : KeepsStore u (latchTags v l u) := modWriter_keeps u l _
  have crowding (u : State) : KeepsStore u (closeCrowding l u) :=
    ite_relates _ _ _ _ _ (modWriter_keeps u l _) (.refl u)
  have work : KeepsStore s (frameWork l s) := by
    unfold frameWork
    exact .trans _ _ _ (.trans _ _ _ (.trans _ _ _ (closeFrame_keeps l s) (evaluate _)) (latch _ _))
      (crowding _)
  unfold frameStart
  exact .trans _ _ _ (.trans _ _ _ (.trans _ _ _ work (.ofLane (laneWork_changes l _)))
    (modLane_keeps _ l _)) (modTake_keeps _ l _)

theorem runAtInput_keeps (l : LaneId) (c : FormatClass) (s : State) :
    KeepsStore s (runAtInput l c s) := by
  have entered := KeepsStore.ofLane (enterRun_changes l c s)
  unfold runAtInput
  exact ite_relates _ _ _ _ _ (.trans _ _ _ entered (frameStart_keeps l _))
    (.trans _ _ _ entered (modLane_keeps _ l _))

theorem inputInRun_keeps (l : LaneId) (d : Detector) (lost : Bool) (s : State) :
    KeepsStore s (inputInRun l d lost s) := by
  have opened : KeepsStore s (if opensFrame s l then frameStart l s else s) :=
    ite_relates _ _ _ _ _ (frameStart_keeps l s) (.refl s)
  have judged : KeepsStore s (modLane l (fun n => { n with detector := d })
      (if opensFrame s l then frameStart l s else s)) := .trans _ _ _ opened (modLane_keeps _ l _)
  unfold inputInRun
  exact ite_relates _ _ _ _ _ (.trans _ _ _ judged (.ofLane (loseLock_changes l _)))
    (ite_relates _ _ _ _ _ judged (.trans _ _ _ judged (modLane_keeps _ l _)))

theorem inputInSeek_keeps (l : LaneId) (d : Detector) (s : State) :
    KeepsStore s (inputInSeek l d s) := by
  unfold inputInSeek
  split
  · exact ite_relates _ _ _ _ _ (runAtInput_keeps l _ s) (.ofLane (formatChange_changes l s))
  · exact .refl s

theorem inputInCoast_keeps (l : LaneId) (d : Detector) (s : State) :
    KeepsStore s (inputInCoast l d s) := by
  unfold inputInCoast
  split
  · exact ite_relates _ _ _ _ _ (runAtInput_keeps l _ s) (.ofLane (formatChange_changes l s))
  · exact .refl s

theorem inputFrameStart_keeps (l : LaneId) (s : State) : KeepsStore s (inputFrameStart l s) := by
  have begun (u : State) : KeepsStore u (beginInput l u) := .same rfl rfl
  have judged (d : Detector) : KeepsStore s (modLane l (fun n => { n with detector := d }) s) :=
    .same rfl rfl
  unfold inputFrameStart
  dsimp only
  refine ite_relates _ _ _ _ _ (.trans _ _ _ ?_ (begun _)) (.refl s)
  split
  · exact inputInRun_keeps l _ _ s
  · exact .trans _ _ _ (judged _) (inputInSeek_keeps l _ _)
  · exact .trans _ _ _ (judged _) (inputInCoast_keeps l _ _)
  · exact judged _

theorem lateFrameStart_keeps (l : LaneId) (s : State) : KeepsStore s (lateFrameStart l s) := by
  unfold lateFrameStart
  exact ite_relates _ _ _ _ _
    (ite_relates _ _ _ _ _
      (.trans _ _ _ (.trans _ _ _ (frameStart_keeps l s) (modLane_keeps _ l _))
        (.ofLane (loseLock_changes l _))) (modLane_keeps s l _)) (.refl s)

/-- R120: the work of a take timer. -/
theorem takeTimerWork_keeps (l : LaneId) (s : State) : KeepsStore s (takeTimerWork l s) := by
  obtain ⟨e, k, g, p, h⟩ := takeTimerWork_frame l s
  rw [h]
  exact .same rfl rfl

theorem switchPoint_keeps (l : LaneId) (s : State) : KeepsStore s (switchPoint l s) := by
  have current : KeepsStore s (applyNudges l (modLane l Lane.planCurrent s)) := .same rfl rfl
  unfold switchPoint
  exact ite_relates _ _ _ _ _
    (.trans _ _ _
      (ite_relates _ _ _ _ _ (.trans _ _ _ current (takeTimerWork_keeps l _)) current)
      (modLane_keeps _ l _)) (.refl s)

theorem take_keeps (l : LaneId) (s : State) : KeepsStore s (take l s) := by
  have apply (u : State) : KeepsStore u (applyHead l u) := by
    obtain ⟨e, k, g, p, h⟩ := applyHead_frame l u
    rw [h]
    exact .same rfl rfl
  exact ite_relates _ _ _ _ _ (.trans _ _ _ (modLane_keeps s l _) (apply _)) (.refl s)

/-! ## Audio ports (R63, R64, R65) -/

theorem portWork_keeps (p : SapId) (xs : Option (Table Sample 16)) (readFirst : Bool) (s : State) :
    KeepsStore s (portWork p xs readFirst s) := by
  have read (u : State) : KeepsStore u (readSlots p u) := by
    unfold readSlots
    exact .trans _ _ _ (.ofMoves (readDests_frame (portDests p) u)) (modSap_keeps _ p _)
  match xs, readFirst with
  | none, false => exact read s
  | none, true => exact read s
  | some xs, false => exact .trans _ _ _ (writeSlots_keeps p xs s) (read _)
  | some xs, true => exact .trans _ _ _ (read s) (writeSlots_keeps p xs _)

theorem wordClockFrameStart_keeps (p : SapId) (xs : Table Sample 16) (readFirst : Bool) (s : State) :
    KeepsStore s (wordClockFrameStart p xs readFirst s) := by
  have work (f : Sap → Sap) (ys : Option (Table Sample 16)) :
      KeepsStore s (portWork p ys readFirst (modSap p f s)) :=
    .trans _ _ _ (modSap_keeps s p f) (portWork_keeps p ys readFirst _)
  unfold wordClockFrameStart
  exact ite_relates _ _ _ _ _
    (ite_relates _ _ _ _ _ (work _ _) (ite_relates _ _ _ _ _ (work _ _) (modSap_keeps s p _))) (.refl s)

theorem portRegain_keeps (p : SapId) (s : State) : KeepsStore s (portRegain p s) := by
  unfold portRegain regainPort
  exact ite_relates _ _ _ _ _ (.trans _ _ _ (modSap_keeps s p _) (portWork_keeps p none false _)) (.refl s)

theorem portClockLost_keeps (p : SapId) (s : State) : KeepsStore s (portClockLost p s) :=
  ite_relates _ _ _ _ _ (.trans _ _ _ (modSap_keeps s p _) (setFlag_keeps _ _)) (.refl s)

theorem internalTimerPeriod_keeps (p : SapId) (readFirst : Bool) (s : State) :
    KeepsStore s (internalTimerPeriod p readFirst s) := by
  unfold internalTimerPeriod
  exact ite_relates _ _ _ _ _ (.trans _ _ _ (modSap_keeps s p _) (portWork_keeps p _ readFirst _)) (.refl s)

/-! ## The patch table, liveness and saves -/

theorem scrubVisit_keeps (s : State) : KeepsStore s (scrubVisit s) := by
  have visit : KeepsStore s (visitEntry s.scrubPos s) :=
    ite_relates _ _ _ _ _
      (.before (.after (setFlag_keeps .entryCheck (modEntry s.scrubPos Entry.suspected s)) rfl rfl) rfl rfl)
      (.refl s)
  exact ite_relates _ _ _ _ _ (.before visit rfl rfl) (.refl s)

theorem portLate_keeps (c : CpId) (s : State) : KeepsStore s (portLate c s) := by
  obtain ⟨p, v, h⟩ := portLate_frame c s
  rw [h]
  exact .same rfl rfl

theorem finishSave_keeps (ok : Bool) (v : Save) (s : State) : KeepsStore s (finishSave ok v s) := by
  have placed (r : Result) (u : State) : KeepsStore u (placeSave v.caller r u) := by
    unfold placeSave
    split <;> exact .same rfl rfl
  unfold finishSave
  exact ite_relates _ _ _ _ _ (.after (placed _ _) rfl rfl)
    (.after (.trans _ _ _ (placed .saveFailed _) (setFlag_keeps _ _)) rfl rfl)

theorem saveComplete_keeps (readBack : Bool) (s : State) : KeepsStore s (saveComplete readBack s) := by
  unfold saveComplete
  split
  · exact .refl s
  · exact finishSave_keeps _ _ s

theorem saveTimeout_keeps (s : State) : KeepsStore s (saveTimeout s) := by
  unfold saveTimeout
  split
  · exact .refl s
  · exact ite_relates _ _ _ _ _ (finishSave_keeps _ _ s) (.refl s)

/-! ## Start-up (R169) -/

theorem powerUp_keeps (straps : BitVec 2) (s : State) : KeepsStore s (powerUp straps s) :=
  ite_relates _ _ _ _ _ (blockReset_keeps s _ _ _ _ _ _ _) (blockReset_keeps s _ _ _ _ _ _ _)

theorem resetNLow_keeps (s : State) : KeepsStore s (resetNLow s) :=
  ite_relates _ _ _ _ _ (.same rfl rfl) (blockReset_keeps s _ _ _ _ _ _ _)

theorem resetNRelease_keeps (straps : BitVec 2) (s : State) : KeepsStore s (resetNRelease straps s) :=
  ite_relates _ _ _ _ _ (blockReset_keeps s _ _ _ _ _ _ _) (.same rfl rfl)

/-- R24, R169: the lanes' frames are closed and opened; the scene holds no sample. -/
theorem sceneLoad_keeps (s : State) : KeepsStore s (sceneLoad s) := by
  have close : KeepsStore s (closeAllFrames s) := by
    unfold closeAllFrames
    exact .foldl _ (fun s l => closeFrame_keeps l s) _ s
  have opened (u : State) : KeepsStore u (openAllFrames u) := by
    unfold openAllFrames
    exact .foldl _ (fun s l => .trans _ _ _ (modWriter_keeps s l _) (modLane_keeps _ l _)) _ u
  have finish (u : State) : KeepsStore u (finishStartup u) := by
    have handed (s : State) (g : FaultGroup) : KeepsStore s (handFault g s) := .same rfl rfl
    unfold finishStartup
    exact .after (.foldl _ handed _ _) rfl rfl
  have put (x : Scene) (o : LoadOutcome) (u : State) : KeepsStore u (putScene x o u) := .same rfl rfl
  have align (u : State) : KeepsStore u (alignAll u) := by
    unfold alignAll
    exact .same rfl rfl
  have loaded := KeepsStore.trans _ _ _ (.trans _ _ _
    (.trans _ _ _ close (put (chosenScene s.store).1 (chosenScene s.store).2 _)) (opened _)) (align _)
  unfold sceneLoad
  exact ite_relates _ _ _ _ _
    (.trans _ _ _ (ite_relates _ _ _ _ _ (.trans _ _ _ loaded (setFlag_keeps _ _)) loaded) (finish _))
    (.refl s)

/-! ## Commands on a control port -/

/-- The effect of a command keeps the form of the Sample Store. -/
def EffectKeeps (effect : Effect) : Prop := ∀ s, KeepsStore s (effect s).1

/-- A command that changes nothing but its own port (R176). -/
theorem EffectKeeps.readOnly {effect : Effect} (h : ∀ s, (effect s).1 = s) : EffectKeeps effect :=
  fun s => (h s).symm ▸ .refl s

/-- The end of a write transaction keeps what the judgement keeps (R146). -/
theorem writeEnds_keeps (c : CpId) (code tag : Byte) (n : Nat) {judge : State → State}
    (h : ∀ s, KeepsStore s (judge s)) (s : State) : KeepsStore s (writeEnds c code tag n judge s) := by
  unfold writeEnds
  refine ite_relates _ _ _ _ _ (ite_relates _ _ _ _ _ (.same rfl rfl) ?_) (.refl s)
  split
  · exact .same rfl rfl
  · exact .after (h _) rfl rfl

theorem command_keeps (c : CpId) (code tag : Byte) {effect : Effect} (h : EffectKeeps effect)
    (s : State) : KeepsStore s (command c code tag effect s) := by
  refine writeEnds_keeps c code tag 40 (fun u => ?_) s
  have ran : KeepsStore u
      (effect (modPort c (fun p => { p with slot := .executing code tag }) (refresh c u))).1 :=
    .after (h _) rfl rfl
  unfold runCommand
  dsimp only
  split
  · exact .before ran rfl rfl
  · exact ran

theorem badBlock_keeps (c : CpId) (bytes : List Byte) (s : State) :
    KeepsStore s (badBlock c bytes s) :=
  writeEnds_keeps _ _ _ _ (fun u => by
    unfold rejectBlock
    split
    · exact .after (setFlag_keeps _ _) rfl rfl
    · exact .refl u) s

/-- A lane command keeps what its effect on the lane keeps (R20). -/
theorem laneCommand_keeps (c : CpId) (lane : Byte) (fieldsOk : Bool) (allowed : LaneState → Bool)
    {effect : LaneId → State → State} (h : ∀ l s, KeepsStore s (effect l s)) :
    EffectKeeps (laneCommand c lane fieldsOk allowed effect) := by
  intro s
  unfold laneCommand
  split
  · exact .refl s
  · split_ifs
    iterate 3 exact .refl s
    exact h _ s

theorem laneNotice_keeps (l : LaneId) (s : State) : KeepsStore s (laneNotice l s) :=
  .ofLane (laneNotice_changes l s)

theorem laneEnable_keeps (l : LaneId) (s : State) : KeepsStore s (laneEnable l s) :=
  .trans _ _ _ (modLane_keeps s l _) (laneNotice_keeps l _)

theorem laneDisable_keeps (l : LaneId) (s : State) : KeepsStore s (laneDisable l s) := by
  have off (u : State) : KeepsStore u (laneNotice l (modLane l (fun n => { n with
      state := .off, coastCount := 0, relockSeen := false, resumeArmed := false, parkCause := none }) u)) :=
    .trans _ _ _ (modLane_keeps u l _) (laneNotice_keeps l _)
  unfold laneDisable
  dsimp only
  split
  · exact .refl s
  · exact .trans _ _ _ (.ofLane (departRun_changes l s)) (off _)
  · exact .trans _ _ _ (.ofLane (leaveParked_changes l s)) (off _)
  · exact off s

theorem lanePark_keeps (l : LaneId) (s : State) : KeepsStore s (lanePark l s) :=
  .trans _ _ _ (ite_relates _ _ _ _ _ (.ofLane (departRun_changes l s)) (.refl s))
    (.ofLane (enterParked_changes l _ _))

theorem laneResume_keeps (l : LaneId) (s : State) : KeepsStore s (laneResume l s) :=
  .trans _ _ _ (.trans _ _ _ (.ofLane (leaveParked_changes l s)) (modLane_keeps _ l _))
    (laneNotice_keeps l _)

theorem setParkMode_keeps (mode : Byte) (l : LaneId) (s : State) :
    KeepsStore s (setParkMode mode l s) := by
  unfold setParkMode
  split
  · exact modLane_keeps s l _
  · exact .refl s

/-! ### Claims (R98 to R103, R109) -/

theorem effectClaim_keeps (c : CpId) (first : BitVec 16) (count : Byte) :
    EffectKeeps (effectClaim c first count) := by
  have taken (items : List ItemId) (s : State) : KeepsStore s (takeItems c items s) := by
    unfold takeItems
    exact .foldl (fun s i => setHolder i (some c) s) (fun _ _ => .same rfl rfl) items s
  intro s
  unfold effectClaim
  dsimp only
  split
  · exact .refl s
  · split
    · exact .refl s
    · exact taken _ s

theorem effectRelease_keeps (c : CpId) (first : BitVec 16) (count : Byte) :
    EffectKeeps (effectRelease c first count) := by
  intro s
  unfold effectRelease
  dsimp only
  split
  · exact .refl s
  · exact .ofGives (freeItems_frame c _ s)

theorem effectSeize_keeps (c : CpId) (first : BitVec 16) (count : Byte) :
    EffectKeeps (effectSeize c first count) := by
  intro s
  unfold effectSeize
  dsimp only
  split_ifs
  · exact .refl s
  · exact .refl s
  · exact .foldl _ (fun s i => .ofGives (seizeItem_frame c i s)) _ s

theorem effectReadClaims_keeps (first : BitVec 16) (count : Byte) :
    EffectKeeps (effectReadClaims first count) := by
  intro s
  unfold effectReadClaims
  split <;> exact .refl s

theorem effectSetWatch_keeps (c : CpId) (late : BitVec 16) (lost : Byte) :
    EffectKeeps (effectSetWatch c late lost) := by
  intro s
  unfold effectSetWatch
  split_ifs
  · exact .refl s
  · exact .refl s
  · exact .after (.foldl _ (fun s k => .ofLoses (judgeLiveness_frame k s)) _ _) rfl rfl

/-! ### Take queues (R116 to R130) -/

theorem stageChange_keeps (c : CpId) (l : LaneId) (x : Change) (s : State) :
    KeepsStore s (stageChange c l x s) := by
  obtain ⟨g, counted⟩ := countUp_frame (x.tag.getD .none) (modTake l (fun t =>
    { t with staging := t.staging.put c (putChange x (t.staging.look c)) }) s)
  unfold stageChange
  dsimp only
  rw [counted]
  exact .after (endChanges_keeps _ _) rfl rfl

theorem effectStage_keeps (c : CpId) (dest source : BitVec 16) (fade tagRef : Byte) (delay : BitVec 16) :
    EffectKeeps (effectStage c dest source fade tagRef delay) := by
  intro s
  unfold effectStage
  split
  · exact .refl s
  · dsimp only
    split_ifs
    iterate 3 exact .refl s
    exact stageChange_keeps c _ _ s

theorem effectUnstage_keeps (c : CpId) (dest : BitVec 16) : EffectKeeps (effectUnstage c dest) := by
  intro s
  unfold effectUnstage
  split
  · exact .refl s
  · dsimp only
    split_ifs
    · exact .refl s
    · exact .trans _ _ _ (modTake_keeps s _ _) (endChanges_keeps _ _)

theorem effectClose_keeps (c : CpId) (lane delay : Byte) : EffectKeeps (effectClose c lane delay) := by
  intro s
  unfold effectClose
  split
  · exact .refl s
  · dsimp only
    split_ifs
    iterate 3 exact .refl s
    exact modTake_keeps s _ _

theorem effectCancel_keeps (c : CpId) (lane position closure : Byte) :
    EffectKeeps (effectCancel c lane position closure) := by
  have ended (l : LaneId) (f : TakeUnit → TakeUnit) (cs : List Change) (s : State) :
      KeepsStore s (endChanges cs (modTake l f s)) :=
    .trans _ _ _ (modTake_keeps s l f) (endChanges_keeps cs _)
  intro s
  unfold effectCancel
  split
  · exact .refl s
  · split_ifs
    · exact .refl s
    · split
      · exact .refl s
      · split_ifs
        · exact .refl s
        · exact .refl s
        · exact ended _ _ _ s
        · exact .before (ended _ _ _ s) rfl rfl

theorem effectHold_keeps (on : Bool) (c : CpId) (lane : Byte) : EffectKeeps (effectHold on c lane) := by
  intro s
  unfold effectHold
  split
  · exact .refl s
  · split
    · exact .refl s
    · split_ifs
      · exact .refl s
      · exact modTake_keeps s _ (fun t => { t with holdCommand := on })

/-! ### Flags and restarts (R159, R171, R172) -/

theorem effectClearFaults_keeps (selection : BitVec 64) : EffectKeeps (effectClearFaults selection) := by
  intro s
  unfold effectClearFaults
  split
  · exact .refl s
  · exact .ofClears (clearFlags_frame _ s)

theorem restartChecks_keeps (c : CpId) {effect : Effect} (h : EffectKeeps effect) :
    EffectKeeps (restartChecks c effect) := by
  intro s
  unfold restartChecks
  split_ifs
  · exact .refl s
  · exact .refl s
  · exact h s

theorem restartFull_keeps (straps : BitVec 2) (s : State) : KeepsStore s (restartFull straps s) :=
  .before (blockReset_keeps s s.pending s.now s.choices .starting s.resetLow (seniorOf straps) s.store)
    rfl rfl

theorem restartRetain_keeps (s : State) : KeepsStore s (restartRetain s) := by
  unfold restartRetain
  exact .after (.ofClears (setFlags_frame _ _)) rfl rfl

/-! ### Commands that only answer, or change one block beside the rings

Each branch of such an effect leaves rings and write indices by definition. -/

theorem effectReadLane_keeps (lane part track : Byte) : EffectKeeps (effectReadLane lane part track) := by
  intro s
  unfold effectReadLane
  repeat' split
  all_goals exact .refl s

theorem effectReadQueue_keeps (c : CpId) (lane : Byte) : EffectKeeps (effectReadQueue c lane) := by
  intro s
  unfold effectReadQueue
  split <;> exact .refl s

theorem effectReadEntry_keeps (dest : BitVec 16) : EffectKeeps (effectReadEntry dest) := by
  intro s
  unfold effectReadEntry
  split <;> exact .refl s

theorem effectReadPort_keeps (port : Byte) : EffectKeeps (effectReadPort port) := by
  intro s
  unfold effectReadPort
  split <;> exact .refl s

theorem effectReadTag_keeps (index : Byte) : EffectKeeps (effectReadTag index) := by
  intro s
  unfold effectReadTag
  split <;> exact .refl s

theorem effectNudge_keeps (c : CpId) (dest : BitVec 16) (amount : Byte) :
    EffectKeeps (effectNudge c dest amount) := by
  intro s
  unfold effectNudge
  repeat' split
  all_goals exact .same rfl rfl

theorem effectCheckTest_keeps (c : CpId) (dest : BitVec 16) : EffectKeeps (effectCheckTest c dest) := by
  intro s
  unfold effectCheckTest
  repeat' split
  all_goals exact .same rfl rfl

theorem effectSetPortRef_keeps (c : CpId) (port lane : Byte) :
    EffectKeeps (effectSetPortRef c port lane) := by
  intro s
  unfold effectSetPortRef
  repeat' split
  all_goals exact .same rfl rfl

theorem effectSetTone_keeps (c : CpId) (level : Byte) : EffectKeeps (effectSetTone c level) := by
  intro s
  unfold effectSetTone
  split_ifs <;> exact .same rfl rfl

theorem effectWriteTag_keeps (c : CpId) (index kind length : Byte) (label : Table Byte 16)
    (user : Table Byte 8) : EffectKeeps (effectWriteTag c index kind length label user) := by
  intro s
  unfold effectWriteTag
  dsimp only
  repeat' split
  all_goals exact .same rfl rfl

theorem effectFreeTag_keeps (c : CpId) (index : Byte) : EffectKeeps (effectFreeTag c index) := by
  intro s
  unfold effectFreeTag
  dsimp only
  repeat' split
  all_goals exact .same rfl rfl

theorem effectClearNotices_keeps (c : CpId) (notices : Byte) :
    EffectKeeps (effectClearNotices c notices) := by
  intro s
  unfold effectClearNotices
  split <;> exact .same rfl rfl

theorem effectSetNoticeMask_keeps (c : CpId) (noticeMask faultMask : Byte) :
    EffectKeeps (effectSetNoticeMask c noticeMask faultMask) := by
  intro s
  unfold effectSetNoticeMask
  split <;> exact .same rfl rfl

theorem effectSetLineMask_keeps (c : CpId) (mask : Byte) : EffectKeeps (effectSetLineMask c mask) := by
  intro s
  unfold effectSetLineMask
  split_ifs <;> exact .same rfl rfl

theorem effectSaveScene_keeps (c : CpId) : EffectKeeps (effectSaveScene c) := by
  intro s
  unfold effectSaveScene
  split_ifs <;> exact .same rfl rfl

theorem effectSetGuard_keeps (c : CpId) (value : Byte) : EffectKeeps (effectSetGuard c value) := by
  intro s
  unfold effectSetGuard
  split_ifs <;> exact .same rfl rfl

/-! ## The step -/

/-- Every command answers a next state in which the form is kept. -/
def Keeps (o : Host.Outcome State Fault Refusal) (s : State) : Prop := ∃ t, o = .next t ∧ KeepsStore s t

theorem Keeps.next {s t : State} (h : KeepsStore s t) : Keeps (.next t) s := ⟨t, rfl, h⟩

/-- A command that a control port has been given keeps what its effect keeps. -/
theorem Keeps.of_command {effect : Effect} (h : EffectKeeps effect) (c : CpId) (code tag : Byte)
    (s : State) : Keeps (.next (command c code tag effect s)) s := .next (command_keeps c code tag h s)

theorem exec_keeps (i : Instr) (s : State) : Keeps (exec i s) s :=
  match i with
  | .powerUp straps => .next (powerUp_keeps straps s)
  | .resetNLow => .next (resetNLow_keeps s)
  | .resetNRelease straps => .next (resetNRelease_keeps straps s)
  | .sceneLoad => .next (sceneLoad_keeps s)
  | .inputFrameStart l => .next (inputFrameStart_keeps l s)
  | .lateFrameStart l => .next (lateFrameStart_keeps l s)
  | .candidateLapse l => .next (ite_relates _ _ _ _ _ (modLane_keeps s l _) (.refl s))
  | .frameStart l => .next (ite_relates _ _ _ _ _ (frameStart_keeps l s) (.refl s))
  | .coastExpiry l =>
    .next (ite_relates _ _ _ _ _ (.ofLane (enterParked_changes l .coastExpiry s)) (.refl s))
  | .switchPoint l => .next (switchPoint_keeps l s)
  | .take l => .next (take_keeps l s)
  | .soundCell l words => .next (soundCell_keeps l words s)
  | .cellLine l line => .next (cellLine_keeps l line s)
  | .wordClockFrameStart p xs rf => .next (wordClockFrameStart_keeps p xs rf s)
  | .fadeEnd _ => .next (.same rfl rfl)
  | .portClockLost p => .next (portClockLost_keeps p s)
  | .internalTimerPeriod p rf => .next (internalTimerPeriod_keeps p rf s)
  | .portRegain p => .next (portRegain_keeps p s)
  | .scrubVisit => .next (scrubVisit_keeps s)
  | .portLate c => .next (portLate_keeps c s)
  | .portLost c => .next (.ofLoses (portLost_frame c s))
  | .saveComplete readBack => .next (saveComplete_keeps readBack s)
  | .saveTimeout => .next (saveTimeout_keeps s)
  | .summaryPoll _ _ => .next (ite_relates _ _ _ _ _ (.same rfl rfl) (.refl s))
  | .readResponse _ _ => .next (ite_relates _ _ _ _ _ (.same rfl rfl) (.refl s))
  | .badBlock c bytes => .next (badBlock_keeps c bytes s)
  | .overrun c _ => .next (writeEnds_keeps c _ _ _ KeepsStore.refl s)
  | .starting c _ => .next (writeEnds_keeps c _ _ _ KeepsStore.refl s)
  | .undefinedCommand c code tag => .of_command (.readOnly fun _ => rfl) c code tag s
  | .keepalive c tag => .of_command (.readOnly fun _ => rfl) c _ tag s
  | .readStatus c tag => .of_command (.readOnly fun _ => rfl) c _ tag s
  | .clearNotices c tag notices => .of_command (effectClearNotices_keeps c notices) c _ tag s
  | .setNoticeMask c tag n f => .of_command (effectSetNoticeMask_keeps c n f) c _ tag s
  | .claim c tag first count => .of_command (effectClaim_keeps c first count) c _ tag s
  | .release c tag first count => .of_command (effectRelease_keeps c first count) c _ tag s
  | .seize c tag first count => .of_command (effectSeize_keeps c first count) c _ tag s
  | .readClaims c tag first count => .of_command (effectReadClaims_keeps first count) c _ tag s
  | .setWatch c tag late lost => .of_command (effectSetWatch_keeps c late lost) c _ tag s
  | .laneEnable c tag lane => .of_command (laneCommand_keeps c lane _ _ laneEnable_keeps) c _ tag s
  | .laneDisable c tag lane => .of_command (laneCommand_keeps c lane _ _ laneDisable_keeps) c _ tag s
  | .lanePark c tag lane => .of_command (laneCommand_keeps c lane _ _ lanePark_keeps) c _ tag s
  | .laneResume c tag lane => .of_command (laneCommand_keeps c lane _ _ laneResume_keeps) c _ tag s
  | .setEmit c tag lane _ =>
    .of_command (laneCommand_keeps c lane _ _ fun l s => modLane_keeps s l _) c _ tag s
  | .setStrip c tag lane _ =>
    .of_command (laneCommand_keeps c lane _ _ fun l s => modLane_keeps s l _) c _ tag s
  | .setParkMode c tag lane mode =>
    .of_command (laneCommand_keeps c lane _ _ (setParkMode_keeps mode)) c _ tag s
  | .setCoastLimit c tag lane _ =>
    .of_command (laneCommand_keeps c lane _ _ fun l s => modLane_keeps s l _) c _ tag s
  | .readLane c tag lane part track => .of_command (effectReadLane_keeps lane part track) c _ tag s
  | .stage c tag dest source fade tagRef delay =>
    .of_command (effectStage_keeps c dest source fade tagRef delay) c _ tag s
  | .unstage c tag dest => .of_command (effectUnstage_keeps c dest) c _ tag s
  | .close c tag lane delay => .of_command (effectClose_keeps c lane delay) c _ tag s
  | .cancel c tag lane position closure =>
    .of_command (effectCancel_keeps c lane position closure) c _ tag s
  | .hold c tag lane => .of_command (effectHold_keeps true c lane) c _ tag s
  | .run c tag lane => .of_command (effectHold_keeps false c lane) c _ tag s
  | .readQueue c tag lane => .of_command (effectReadQueue_keeps c lane) c _ tag s
  | .readEntry c tag dest => .of_command (effectReadEntry_keeps dest) c _ tag s
  | .nudge c tag dest amount => .of_command (effectNudge_keeps c dest amount) c _ tag s
  | .checkTest c tag dest => .of_command (effectCheckTest_keeps c dest) c _ tag s
  | .readPort c tag port => .of_command (effectReadPort_keeps port) c _ tag s
  | .setPortRef c tag port lane => .of_command (effectSetPortRef_keeps c port lane) c _ tag s
  | .setTone c tag level => .of_command (effectSetTone_keeps c level) c _ tag s
  | .writeTag c tag index kind length label user =>
    .of_command (effectWriteTag_keeps c index kind length label user) c _ tag s
  | .freeTag c tag index => .of_command (effectFreeTag_keeps c index) c _ tag s
  | .readTag c tag index => .of_command (effectReadTag_keeps index) c _ tag s
  | .readFaults c tag => .of_command (.readOnly fun _ => rfl) c _ tag s
  | .clearFaults c tag selection => .of_command (effectClearFaults_keeps selection) c _ tag s
  | .setLineMask c tag mask => .of_command (effectSetLineMask_keeps c mask) c _ tag s
  | .saveScene c tag => .of_command (effectSaveScene_keeps c) c _ tag s
  | .setGuard c tag value => .of_command (effectSetGuard_keeps c value) c _ tag s
  | .restartFull c tag straps =>
    .of_command (restartChecks_keeps c fun s => restartFull_keeps straps s) c _ tag s
  | .restartRetain c tag mode => .of_command (by
      split
      · exact restartChecks_keeps c fun s => restartRetain_keeps s
      · exact .readOnly fun _ => rfl) c _ tag s
  | .entryUpset _ _ => .next (ite_relates _ _ _ _ _ (.same rfl rfl) (.refl s))
  | .powerLoss => .next (blockReset_keeps s _ _ _ _ _ _ _)
  | .chipSelectFall _ => .next (ite_relates _ _ _ _ _ (.same rfl rfl) (.refl s))

/-- The clock touches no ring (log 1, log 3). -/
theorem idle_keeps (s : State) : KeepsStore s (idle s) := by
  unfold idle
  split <;> exact .same rfl rfl

/-- Settles O5: a step is the clock or one command, and each command keeps the form. -/
theorem everyStepKeepsStoreForm : Obligations.EveryStepKeepsStoreForm := by
  intro s t form stepped
  unfold step at stepped
  split at stepped
  · cases stepped
    exact (idle_keeps s).form form
  · rename_i c rest _
    obtain ⟨u, ran, keeps⟩ := exec_keeps c { s with pending := rest }
    cases ran.symm.trans stepped
    exact keeps.form form

end Sys2Proof.Machine.StoreKept
end

section
/-! PROOFS. The sample path of one destination (R60, R68 to R74, R89): what a move of its entry leaves, by a
sample read and by a silent advance. -/

namespace Sys2Proof.Machine.SampleMoves

/-! ## The slip rule (R71) -/

/-- R79: the delay target in use lies within 16..2048 samples. -/
theorem delayUsed_bounds (e : Entry) : 16 ≤ e.delayUsed ∧ e.delayUsed ≤ 2048 := by
  unfold Entry.delayUsed
  split
  · assumption
  · decide

/-- A distance outside 8..4000 samples (R71). -/
abbrev OutOfReach (n : Nat) : Prop := n < 8 ∨ 4000 < n

theorem slips_ring (s : State) (r : RingId) (i : RingPos) :
    slips s (.ring r) i = decide (OutOfReach (s.writeIndex.look r - i).toNat) :=
  (Bool.decide_or _ _).symm

/-- R72: an aligned index stands at the delay target. -/
theorem distance_aligned (w : RingPos) {n : Nat} (h : n < 4096) :
    (w - (w - BitVec.ofNat 12 n)).toNat = n := by
  rw [sub_sub_cancel, BitVec.toNat_ofNat, Nat.mod_eq_of_lt h]

theorem slips_aligned (s : State) (src : Src) (e : Entry) :
    slips s src (alignedIndex s src e.delayUsed) = false := by
  obtain ⟨low, high⟩ := delayUsed_bounds e
  cases src with
  | ring r =>
    rw [slips_ring, alignedIndex, distance_aligned _ (by omega), decide_eq_false_iff_not]
    omega
  | tone => rfl
  | silence => rfl

/-- R71: after the slip rule the distance of a ring's index lies within 8..4000 samples. -/
theorem afterSlip_inDistance (s : State) (r : RingId) (e : Entry) (i : RingPos) :
    ¬ OutOfReach (s.writeIndex.look r - afterSlip s (.ring r) e.delayUsed i).toNat := by
  unfold afterSlip
  split
  · exact of_decide_eq_false ((slips_ring s r _).symm.trans (slips_aligned s (.ring r) e))
  · rename_i stay
    rw [slips_ring, decide_eq_true_eq] at stay
    exact stay

/-! ## A move of an entry (R68, R70, R73, R74) -/

/-- Where the moves of the obligations take an index: `moved`, as the model's moves and slip rule do. -/
def MovesTo (s : State) (n : Option Nat) (e : Entry) (moved : Src → RingPos → RingPos) : Prop :=
  ∀ src i, afterSlip s src e.delayUsed (movedIndex s n src e.delayUsed i) = moved src i

/-- The fade part after `step` samples, its index moved by `moved` (R73, R74). -/
def fadeMoved (moved : Src → RingPos → RingPos) (step : Nat) : Option Fade → Option Fade
  | none => none
  | some f =>
    if f.length ≤ f.pos + step then none
    else some { f with prevIndex := moved f.prev f.prevIndex, pos := f.pos + step }

theorem movedEntry_eq {s : State} {n : Option Nat} {e : Entry} {moved : Src → RingPos → RingPos}
    (h : MovesTo s n e moved) : movedEntry s n e = { e with
      readIndex := moved e.src e.readIndex, fade := fadeMoved moved (n.getD 1) e.fade } := by
  have fade : endFade (e.fade.map fun f => { f with
      prevIndex := afterSlip s f.prev e.delayUsed (movedIndex s n f.prev e.delayUsed f.prevIndex)
      pos := f.pos + n.getD 1 }) = fadeMoved moved (n.getD 1) e.fade := by
    cases e.fade with
    | none => rfl
    | some f => rw [Option.map_some, h]; rfl
  unfold movedEntry
  dsimp only
  rw [h, fade]

theorem moveSlips_iff (s : State) (n : Option Nat) (e : Entry) : moveSlips s n e = true ↔
    slips s e.src (movedIndex s n e.src e.delayUsed e.readIndex) = true ∨
      ∃ g, e.fade = some g ∧
        slips s g.prev (movedIndex s n g.prev e.delayUsed g.prevIndex) = true := by
  unfold moveSlips
  rw [Bool.or_eq_true]
  refine or_congr_right ?_
  cases e.fade with
  | none => simp
  | some f => simp

theorem eq_of_movesEntries {s t : State} (h : MovesEntries s t) :
    t = { s with entries := t.entries, flags := t.flags, ports := t.ports } := by
  obtain ⟨e, v, p, rfl⟩ := h
  rfl

/-! ## A sample read (R68, R69, R73) -/

/-- Whether the read of an index slips (R71): an idle source is aligned and does not. -/
def readSlips (s : State) (src : Src) (i : RingPos) : Bool :=
  match src with
  | .ring r => !ringIdle s r && decide (OutOfReach (s.writeIndex.look r - (i + 1)).toNat)
  | _ => false

/-- Where a read takes an index (R68, R69, R71). -/
def readMoved (s : State) (delay : Nat) (src : Src) (i : RingPos) : RingPos :=
  match src with
  | .ring r =>
    if ringIdle s r || readSlips s src i then s.writeIndex.look r - BitVec.ofNat 12 delay else i + 1
  | _ => BitVec.ofNat 12 ((i.toNat + 1) % 48)

theorem slips_read (s : State) (e : Entry) (src : Src) (i : RingPos) :
    slips s src (movedIndex s none src e.delayUsed i) = readSlips s src i := by
  cases src with
  | ring r =>
    simp only [movedIndex, indexAfterRead, readSlips]
    cases ringIdle s r with
    | true => exact slips_aligned s (.ring r) e
    | false => exact slips_ring s r _
  | tone => rfl
  | silence => rfl

theorem movesTo_read (s : State) (e : Entry) : MovesTo s none e (readMoved s e.delayUsed) := by
  intro src i
  rw [afterSlip, slips_read]
  cases src with
  | ring r =>
    simp only [readMoved, movedIndex, indexAfterRead]
    cases idle : ringIdle s r with
    | true => simp [alignedIndex]
    | false => simp [alignedIndex, advanceIndex]
  | tone => rfl
  | silence => rfl

/-- R89, R68: a SUSPECT entry yields 0; a STEADY one the sample at its read index. -/
theorem entrySample_suspect (s : State) {e : Entry} (h : e.health = .suspect) : entrySample s e = 0 := by
  rw [entrySample, h]

theorem entrySample_steady (s : State) {e : Entry} (h : e.health = .good) (steady : e.fade = none) :
    entrySample s e = fetchSample s e.src e.readIndex := by
  rw [entrySample, h, steady]

theorem entrySample_fading (s : State) {e : Entry} {f : Fade} (h : e.health = .good)
    (fading : e.fade = some f) : entrySample s e =
      mixSamples (fetchSample s f.prev f.prevIndex) (fetchSample s e.src e.readIndex) f.length f.pos := by
  rw [entrySample, h, fading]

/-- Settles O48: a read moves the entry as `readMoved` says, and the slip rule keeps it in distance. -/
theorem sampleReadStaysInDistance : Obligations.SampleReadStaysInDistance := by
  intro d s e x t sample slipped moved
  have fetched : fetchSample s = sample := by
    funext src i
    cases src <;> rfl
  have slip : readSlips s = slipped := by
    funext src i
    cases src <;> rfl
  have move : readMoved s e.delayUsed = moved := by
    funext src i
    cases src <;> rfl
  have after : t.entries.look d = movedEntry s none e := moveEntry_self none d s
  refine ⟨eq_of_movesEntries (moveEntry_frame none d s), (readDest_tells d s).1,
    fun k other => moveEntry_other none s other, entrySample_suspect s, ?_, ?_, ?_, ?_, fun f => ?_⟩
  · exact fun good steady => fetched ▸ entrySample_steady s good steady
  · exact fun f good fading => fetched ▸ entrySample_fading s good fading
  · rw [after, movedEntry_eq (movesTo_read s e), move]
    cases e.fade <;> rfl
  · intro r ring
    have near := afterSlip_inDistance s r e (movedIndex s none (.ring r) e.delayUsed e.readIndex)
    have index : (t.entries.look d).readIndex =
        afterSlip s (.ring r) e.delayUsed (movedIndex s none (.ring r) e.delayUsed e.readIndex) := by
      rw [after, ← ring]
      rfl
    rw [index]
    omega
  · have flag := CellLines.moveEntry_flag none d s f
    simp only [moveSlips_iff, slips_read, slip] at flag
    exact flag

/-! ## A silent advance (R70) -/

/-- Whether an advance of `n` samples slips (R71). -/
def AdvanceSlips (s : State) (n : Nat) (src : Src) (i : RingPos) : Prop :=
  ∃ r, src = .ring r ∧ OutOfReach (s.writeIndex.look r - (i + BitVec.ofNat 12 n)).toNat

/-- Where an advance of `n` samples takes an index (R70, R71). -/
def advanceMoved (s : State) (n delay : Nat) (src : Src) (i : RingPos) : RingPos :=
  match src with
  | .ring r =>
    if OutOfReach (s.writeIndex.look r - (i + BitVec.ofNat 12 n)).toNat then
      s.writeIndex.look r - BitVec.ofNat 12 delay
    else i + BitVec.ofNat 12 n
  | _ => BitVec.ofNat 12 ((i.toNat + n) % 48)

theorem slips_advance (s : State) (n : Nat) (e : Entry) (src : Src) (i : RingPos) :
    slips s src (movedIndex s (some n) src e.delayUsed i) = true ↔ AdvanceSlips s n src i := by
  cases src with
  | ring r => simp [movedIndex, advanceIndex, slips_ring, AdvanceSlips]
  | tone => simp [slips, distance, AdvanceSlips]
  | silence => simp [slips, distance, AdvanceSlips]

theorem movesTo_advance (s : State) (n : Nat) (e : Entry) :
    MovesTo s (some n) e (advanceMoved s n e.delayUsed) := by
  intro src i
  unfold afterSlip
  cases src with
  | ring r =>
    simp only [slips_advance, AdvanceSlips, Src.ring.injEq, exists_eq_left']
    rfl
  | tone => rfl
  | silence => rfl

/-- Settles O49: an advance moves the entry as `advanceMoved` says, and slips where an index does. -/
theorem silentAdvanceMovesByN : Obligations.SilentAdvanceMovesByN := by
  intro n d s
  refine ⟨if_pos rfl, fun some_samples => ?_⟩
  intro e e' moved
  have advance : silentAdvance n d s = moveEntry (some n) d s := if_neg (by omega)
  have move : advanceMoved s n e.delayUsed = moved := by
    funext src i
    cases src <;> rfl
  refine ⟨?_, ?_⟩
  · have after : e' = movedEntry s (some n) e := by
      show (silentAdvance n d s).entries.look d = _
      rw [advance, moveEntry_self]
    rw [after, movedEntry_eq (movesTo_advance s n e), move]
    cases e.fade <;> rfl
  · intro slipped
    refine ⟨fun k other => ?_, ?_, fun f => ?_⟩
    · rw [advance, moveEntry_other _ s other]
    · rintro t rfl
      exact ⟨eq_of_movesEntries (silentAdvance_frame n d s), (silentAdvance_tells n d s).1⟩
    · have flag := CellLines.moveEntry_flag (some n) d s f
      simp only [moveSlips_iff, slips_advance] at flag
      exact advance ▸ flag

end Sys2Proof.Machine.SampleMoves
end

section
/-! PROOFS. The serial audio ports (R62 to R66): what the two pieces of work of a port leave, in either order, and
from it the word-clock frame starts, the clock loss, the internal timer and the regain. -/

namespace Sys2Proof.Machine.PortAudio

open PortRings

/-! ## The sources and destinations of a port (R1) -/

theorem laneTrackOf_sapRing (p : SapId) (k : Fin 16) : laneTrackOf (sapRing p k) = none :=
  dif_neg (by simp only [sapRing]; omega)

theorem sapOf_sapRing (p : SapId) (k : Fin 16) : sapOf (sapRing p k) = some p := by
  have high : 192 ≤ (sapRing p k).val := by simp only [sapRing]; omega
  rw [sapOf, dif_pos high]
  simp only [sapRing, Option.some.injEq, Fin.ext_iff]
  omega

/-- A source of a port is valid exactly while the port is PRESENT (R64, R65). -/
theorem srcValid_sapRing (s : State) (p : SapId) (k : Fin 16) :
    srcValid s (.ring (sapRing p k)) = (s.saps.look p).present := by
  simp only [srcValid, laneTrackOf_sapRing, sapOf_sapRing]

theorem mem_portDests {p : SapId} {d : DestId} : d ∈ portDests p ↔ sapOf d = some p := by
  unfold portDests
  rw [List.mem_map]
  constructor
  · rintro ⟨k, -, rfl⟩
    exact sapOf_sapRing p k
  · intro own
    unfold sapOf at own
    split at own
    · cases own
      refine ⟨⟨(d.val - 192) % 16, by omega⟩, List.mem_finRange _, Fin.ext ?_⟩
      simp only [sapDest]
      omega
    · cases own

theorem portDests_nodup (p : SapId) : (portDests p).Nodup :=
  (List.nodup_finRange 16).map fun _ _ same => (sapRing_inj.mp same).2

theorem count_sapDest (p : SapId) (k : Fin 16) : (portDests p).count (sapDest p k) = 1 :=
  List.count_eq_one_of_mem (portDests_nodup p) (mem_portDests.mpr (sapOf_sapRing p k))

/-- R66: a port's reference lane times its destinations. -/
theorem timingLane_of_sapOf (s : State) {p : SapId} {d : DestId} (own : sapOf d = some p) :
    timingLane s d = (s.saps.look p).refLane := by
  have high : ¬ d.val < 192 := by
    intro low
    rw [sapOf, dif_neg (by omega)] at own
    cases own
  simp only [timingLane, laneTrackOf, high, dif_neg, not_false_eq_true, own]

/-! ## The reads of a port's destinations (R63, R64) -/

/-- The samples of one read of each of a port's destinations, in slot order. -/
def slotSamples (p : SapId) (view : State) : Table Sample 16 :=
  Table.gen fun k => (readDest (sapDest p k) view).1

/-- A port sends the samples read while it is PRESENT, and zeros while LOST (R63, R64). -/
def sends (samples : Table Sample 16) (q : Sap) : Sap :=
  { q with output := if q.present then samples else Table.fill 16 0 }

theorem readSlots_eq (p : SapId) (s : State) :
    readSlots p s = modSap p (sends (slotSamples p s)) (readDests (portDests p) s).2 := by
  have samples : slotTable (readDests (portDests p) s).1 = slotSamples p s := by
    rw [CellLines.readDests_samples (portDests_nodup p)]
    refine Table.ext_look fun k => ?_
    simp only [slotTable, slotSamples, Table.look_gen, portDests, List.map_map]
    rw [List.getD_eq_getElem _ _ (by simp)]
    simp only [List.getElem_map, List.getElem_finRange, Fin.cast_mk, Fin.eta, Function.comp_apply]
    rfl
  rw [← samples]
  rfl

/-- State `t` is left by the work of port `p`, which stood as `q` at its beginning; the reads saw the state
`view` (R63, R64). -/
structure PortWorked (p : SapId) (q : Sap) (view s t : State) : Prop where
  sap : t.saps.look p = sends (slotSamples p view) q
  sap_other : ∀ k, k ≠ p → t.saps.look k = s.saps.look k
  entry : ∀ k, t.entries.look (sapDest p k) =
    (readDest (sapDest p k) view).2.entries.look (sapDest p k)
  entry_other : ∀ d, sapOf d ≠ some p → t.entries.look d = s.entries.look d
  flag : ∀ f, flagSet t f = true ↔
    flagSet s f = true ∨ ∃ k, flagSet (readDest (sapDest p k) view).2 f = true
  flag_other : ∀ f, f ≠ .slip q.refLane → flagSet t f = flagSet s f

section
variable {p : SapId} {s t : State}

/-- The slips of a port's reads are slips of single reads (R71). -/
theorem flag_of_reads (reads : CellLines.ReadsEach (fun d => (portDests p).count d) s t)
    (f : FaultFlag) : flagSet t f = true ↔
      flagSet s f = true ∨ ∃ k, flagSet (readDest (sapDest p k) s).2 f = true := by
  simp only [reads.flag, readDest, CellLines.moveEntry_flag]
  constructor
  · rintro (set | ⟨d, rfl, slip⟩)
    · exact .inl set
    · have own : d ∈ portDests p := by
        by_contra other
        rw [List.count_eq_zero.mpr other] at slip
        exact CellLines.not_slipsWithin_zero s d slip
      obtain ⟨k, -, rfl⟩ := List.mem_map.mp own
      rw [count_sapDest, CellLines.slipsWithin_one] at slip
      exact .inr ⟨k, .inr ⟨rfl, slip⟩⟩
  · rintro (set | ⟨k, set | ⟨rfl, slip⟩⟩)
    · exact .inl set
    · exact .inl set
    · exact .inr ⟨sapDest p k, rfl, by rwa [count_sapDest, CellLines.slipsWithin_one]⟩

theorem PortWorked.of_reads (reads : CellLines.ReadsEach (fun d => (portDests p).count d) s t) :
    PortWorked p (s.saps.look p) s s (modSap p (sends (slotSamples p s)) t) := by
  have saps : t.saps = s.saps := by
    obtain ⟨w, e, v, q, same⟩ := reads.emits
    rw [same]
  have unread {d : DestId} (other : sapOf d ≠ some p) : (portDests p).count d = 0 :=
    List.count_eq_zero.mpr fun own => other (mem_portDests.mp own)
  constructor
  case sap => rw [modSap_look_self, saps]
  case sap_other => exact fun k other => by rw [modSap_look_ne _ _ other.symm, saps]
  case entry =>
    intro k
    rw [modSap_entries, reads.entry, count_sapDest]
    exact (moveEntry_self none _ s).symm
  case entry_other =>
    intro d other
    rw [modSap_entries, reads.entry, unread other]
    rfl
  case flag =>
    have flags := flag_of_reads reads
    exact flags
  case flag_other =>
    intro f other
    rw [Bool.eq_iff_iff]
    refine (reads.flag f).trans ⟨fun set => set.elim id ?_, .inl⟩
    rintro ⟨d, rfl, slip⟩
    have apart : sapOf d ≠ some p := fun own => other (by rw [timingLane_of_sapOf s own])
    rw [unread apart] at slip
    exact absurd slip (CellLines.not_slipsWithin_zero s d)

end

theorem readSlots_worked (p : SapId) (s : State) :
    PortWorked p (s.saps.look p) s s (readSlots p s) := by
  rw [readSlots_eq]
  exact .of_reads (CellLines.readDests_reads (portDests p) s)

/-- R68: reads leave rings and indices. -/
theorem readSlots_rings (p : SapId) (s : State) :
    (readSlots p s).mem = s.mem ∧ (readSlots p s).writeIndex = s.writeIndex := by
  obtain ⟨e, v, q, same⟩ := readDests_frame (portDests p) s
  rw [readSlots_eq, modSap_mem, modSap_writeIndex, same]
  exact ⟨rfl, rfl⟩

/-! ## The two pieces of work, in either order (log 10) -/

section
variable {p : SapId} {q : Sap} {view s t : State}

/-- A port that is PRESENT sends the samples read; one that is LOST sends zeros (R63, R64). -/
theorem PortWorked.output (h : PortWorked p q view s t) (present : q.present = true) (k : Fin 16) :
    (t.saps.look p).output.look k = (readDest (sapDest p k) view).1 := by
  rw [h.sap, sends, if_pos present, slotSamples, Table.look_gen]

theorem PortWorked.output_lost (h : PortWorked p q view s t) (lost : q.present = false) :
    (t.saps.look p).output = Table.fill 16 0 := by
  rw [h.sap, sends, if_neg (by simp [lost])]

/-- A write of rings after the reads. -/
theorem PortWorked.writes {u : State} (h : PortWorked p q view s t) (w : WritesRings t u) :
    PortWorked p q view s u := by
  obtain ⟨m, i, rfl⟩ := w
  exact ⟨h.sap, h.sap_other, h.entry, h.entry_other, h.flag, h.flag_other⟩

/-- A write of rings before the reads. -/
theorem PortWorked.written {u : State} (w : WritesRings u s) (h : PortWorked p q view s t) :
    PortWorked p q view u t := by
  obtain ⟨m, i, rfl⟩ := w
  exact ⟨h.sap, h.sap_other, h.entry, h.entry_other, h.flag, h.flag_other⟩

/-- A change of the port itself that leaves its reference lane is seen by no read. -/
theorem PortWorked.of_modSap {f : Sap → Sap}
    (ref : (f (s.saps.look p)).refLane = (s.saps.look p).refLane) (saps : view.saps = s.saps)
    (h : PortWorked p (f (s.saps.look p)) (modSap p f view) (modSap p f s) t) :
    PortWorked p (f (s.saps.look p)) view s t := by
  have timing (k : Fin 16) : timingLane (modSap p f view) (sapDest p k) =
      timingLane view (sapDest p k) := by
    have own : sapOf (sapDest p k) = some p := sapOf_sapRing p k
    rw [timingLane_of_sapOf _ own, timingLane_of_sapOf _ own, modSap_look_self, saps, ref]
  have samples : slotSamples p (modSap p f view) = slotSamples p view := rfl
  constructor
  case sap => rw [h.sap, samples]
  case sap_other => exact fun k other => (h.sap_other k other).trans (modSap_look_ne f s other.symm)
  case entry =>
    intro k
    rw [h.entry, readDest, readDest, moveEntry_self, moveEntry_self]
    rfl
  case entry_other => exact h.entry_other
  case flag =>
    intro g
    have base : flagSet (modSap p f s) g = flagSet s g := rfl
    simp only [h.flag, base, readDest, CellLines.moveEntry_flag, timing]
    rfl
  case flag_other => exact h.flag_other

end

/-- The state that the reads of a port see: as it stood before the writes, or as they leave it (R63,
log 10). -/
def readView (readFirst : Bool) (s t : State) : State :=
  if readFirst then s else { s with mem := t.mem, writeIndex := t.writeIndex }

/-- Reads that come after the writes (R63, log 10). -/
theorem readSlots_after {p : SapId} {f : Sap → Sap} {s u : State}
    (ref : (f (s.saps.look p)).refLane = (s.saps.look p).refLane)
    (written : WritesRings (modSap p f s) u) :
    PortWorked p (f (s.saps.look p)) (readView false s (readSlots p u)) s (readSlots p u) := by
  have worked := (readSlots_worked p u).written written
  obtain ⟨mem, index⟩ := readSlots_rings p u
  have view : readView false s (readSlots p u) = { s with mem := u.mem, writeIndex := u.writeIndex } := by
    rw [readView, if_neg Bool.false_ne_true, mem, index]
  have seen : u = modSap p f { s with mem := u.mem, writeIndex := u.writeIndex } := by
    obtain ⟨m, i, rfl⟩ := written
    rfl
  have met : u.saps.look p = f (s.saps.look p) := by rw [seen, modSap_look_self]
  rw [view]
  refine .of_modSap ref rfl ?_
  rw [← seen, ← met]
  exact worked

/-- R63, R64: the work of a port that was changed by `f` as the event began. -/
theorem portWork_worked (p : SapId) (xs : Option (Table Sample 16)) (readFirst : Bool) {f : Sap → Sap}
    {s : State} (ref : (f (s.saps.look p)).refLane = (s.saps.look p).refLane) :
    PortWorked p (f (s.saps.look p))
      (readView readFirst s (portWork p xs readFirst (modSap p f s))) s
      (portWork p xs readFirst (modSap p f s)) := by
  have before : PortWorked p (f (s.saps.look p)) (modSap p f s) (modSap p f s)
      (readSlots p (modSap p f s)) := modSap_look_self p f s ▸ readSlots_worked p (modSap p f s)
  match readFirst, xs with
  | true, none => exact .of_modSap ref rfl before
  | true, some xs => exact .of_modSap ref rfl (before.writes (writeSlots_frame p xs _))
  | false, none => exact readSlots_after ref (WritesRings.refl _)
  | false, some xs => exact readSlots_after ref (writeSlots_frame p xs _)

/-- R63, R64: the work of a port with samples to write, in either order. -/
theorem portWork_written (p : SapId) (xs : Table Sample 16) (readFirst : Bool) (f : Sap → Sap)
    (s : State) : SlotsWritten p xs (List.finRange 16) s
      (portWork p (some xs) readFirst (modSap p f s)) := by
  cases readFirst with
  | true =>
    obtain ⟨mem, index⟩ := readSlots_rings p (modSap p f s)
    exact (writeSlots_written p xs _).congr mem.symm index.symm rfl rfl
  | false =>
    obtain ⟨mem, index⟩ := readSlots_rings p (writeSlots p xs (modSap p f s))
    exact (writeSlots_written p xs (modSap p f s)).congr rfl rfl mem index

/-- R63, R65: the work of a port that writes nothing. -/
theorem portWork_unwritten (p : SapId) (readFirst : Bool) (f : Sap → Sap) (s : State) :
    (portWork p none readFirst (modSap p f s)).mem = s.mem ∧
      (portWork p none readFirst (modSap p f s)).writeIndex = s.writeIndex := by
  cases readFirst with
  | true => exact readSlots_rings p (modSap p f s)
  | false => exact readSlots_rings p (modSap p f s)

theorem eq_of_worksPort {s t : State} (h : WorksPort s t) : t = { s with
    mem := t.mem, writeIndex := t.writeIndex, saps := t.saps, entries := t.entries,
    flags := t.flags, ports := t.ports } := by
  obtain ⟨m, i, a, e, v, p, rfl⟩ := h
  rfl

theorem eq_of_worksPort_unwritten {s t : State} (h : WorksPort s t) (mem : t.mem = s.mem)
    (index : t.writeIndex = s.writeIndex) :
    t = { s with saps := t.saps, entries := t.entries, flags := t.flags, ports := t.ports } := by
  obtain ⟨m, i, a, e, v, p, rfl⟩ := h
  cases mem
  cases index
  rfl

theorem portWork_modSap_frame (p : SapId) (xs : Option (Table Sample 16)) (readFirst : Bool)
    (f : Sap → Sap) (s : State) : WorksPort s (portWork p xs readFirst (modSap p f s)) :=
  WorksPort.trans _ _ _ (modSap_works p f s) (portWork_frame p xs readFirst _)

theorem portWork_modSap_tells (p : SapId) (xs : Option (Table Sample 16)) (readFirst : Bool)
    (f : Sap → Sap) (s : State) : TellsPorts [] s (portWork p xs readFirst (modSap p f s)) :=
  (Tells.trans _ _ _ _ (modSap_tells [] s p f) (portWork_tells p xs readFirst _)).1

/-! ## Word-clock frame starts of a PRESENT port (R63) -/

theorem exec_wordClock_present {p : SapId} {s : State} (xs : Table Sample 16) (readFirst : Bool)
    (on : awake s = true) (present : (s.saps.look p).present = true) :
    exec (.wordClockFrameStart p xs readFirst) s = .next (presentFrameStart p xs readFirst s) := by
  show Host.Outcome.next (wordClockFrameStart p xs readFirst s) = _
  rw [wordClockFrameStart, if_pos on, if_pos present]

/-- Settles O45: the writes are those of `writeSlots`, the reads those of `portWork_worked`. -/
theorem wordClockFrameWritesAndReads : Obligations.WordClockFrameWritesAndReads := by
  intro p xs readFirst s on ⟨wf, _⟩ present
  have worked := portWork_worked p (if (s.saps.look p).frameOpen then some xs else none) readFirst
    (f := fun q => { q with frameOpen := true, clockAt := s.now }) (s := s) rfl
  have written (opened : (s.saps.look p).frameOpen = true) :
      SlotsWritten p xs (List.finRange 16) s (presentFrameStart p xs readFirst s) := by
    rw [presentFrameStart, if_pos opened]
    exact portWork_written p xs readFirst _ s
  have unwritten (first : (s.saps.look p).frameOpen = false) :
      (presentFrameStart p xs readFirst s).mem = s.mem ∧
        (presentFrameStart p xs readFirst s).writeIndex = s.writeIndex := by
    rw [presentFrameStart, if_neg (by simp [first])]
    exact portWork_unwritten p readFirst _ s
  refine ⟨_, exec_wordClock_present xs readFirst on present,
    eq_of_worksPort (portWork_modSap_frame _ _ _ _ _), congrArg (·.frameOpen) worked.sap,
    congrArg (·.clockAt) worked.sap, (congrArg (·.present) worked.sap).trans present, worked.sap_other,
    worked.entry_other, portWork_modSap_tells _ _ _ _ _, fun opened => ⟨fun k => ⟨?_, ?_⟩, ?_, ?_⟩,
    unwritten, ?_, worked.flag_other, ?_⟩
  · exact (written opened).index k (List.mem_finRange k)
  · exact (written opened).read wf k (List.mem_finRange k)
  · exact fun r other => (written opened).index_other r fun k _ => other k
  · exact fun a other => (written opened).read_other a fun k _ => other k
  · rintro u rfl k
    exact ⟨worked.output present k, worked.entry k⟩
  · rintro u rfl
    exact worked.flag

/-! ## Clock loss and the internal timer (R64) -/

/-- A port whose word clock is lost: LOST, its frame abandoned, the internal timer's first period due (R64). -/
def lostSap (q : Sap) : Sap :=
  { q with
    present := false, regain := 0, frameOpen := false, timerAt := q.clockAt + 64
    output := Table.fill 16 0 }

theorem portClockLost_due {p : SapId} {s : State} (loss : clockLossDue s p = true) :
    portClockLost p s = setFlag (.portClockLost p) (modSap p lostSap s) := if_pos loss

theorem portClockLost_saps {p : SapId} {s : State} (loss : clockLossDue s p = true) :
    (portClockLost p s).saps = (modSap p lostSap s).saps := by
  obtain ⟨v, q, same⟩ := setFlag_frame (.portClockLost p) (modSap p lostSap s)
  rw [portClockLost_due loss, same]

theorem portClockLost_frame {p : SapId} {s : State} (loss : clockLossDue s p = true) :
    portClockLost p s = { s with
      saps := (portClockLost p s).saps, flags := (portClockLost p s).flags
      ports := (portClockLost p s).ports } := by
  obtain ⟨v, q, same⟩ := setFlag_frame (.portClockLost p) (modSap p lostSap s)
  rw [portClockLost_due loss, same]
  rfl

theorem portClockLost_flag {p : SapId} {s : State} (loss : clockLossDue s p = true) (f : FaultFlag) :
    flagSet (portClockLost p s) f = true ↔ f = .portClockLost p ∨ flagSet s f = true := by
  rw [portClockLost_due loss, flagSet_setFlag, Bool.or_eq_true, decide_eq_true_eq, or_comm]
  rfl

/-- R64: a period of the internal timer is the work of a port that receives zeros. -/
theorem internalTimerPeriod_due {p : SapId} {s : State} (readFirst : Bool)
    (period : timerPeriodDue s p = true) : internalTimerPeriod p readFirst s =
      portWork p (some (Table.fill 16 0)) readFirst
        (modSap p (fun q => { q with timerAt := q.timerAt + 16 }) s) := if_pos period

/-- Settles O46: the loss is one flag and one port's state; a period is the work of a LOST port. -/
theorem clockLossRunsOnTheInternalTimer : Obligations.ClockLossRunsOnTheInternalTimer := by
  intro p readFirst s ⟨wf, _⟩
  constructor
  · intro loss
    have own : (portClockLost p s).saps.look p = lostSap (s.saps.look p) := by
      rw [portClockLost_saps loss, modSap_look_self]
    refine ⟨portClockLost p s, rfl, portClockLost_frame loss, own, fun q other => ?_,
      portClockLost_flag loss, (portClockLost_tells p s).1, fun k => ?_⟩
    · rw [portClockLost_saps loss, modSap_look_ne _ _ other.symm]
    · rw [srcValid_sapRing, own]
      rfl
  · intro period
    have lost : (s.saps.look p).present = false := by
      simp only [timerPeriodDue, Bool.and_eq_true, Bool.not_eq_true'] at period
      exact period.1.2
    have worked := portWork_worked p (some (Table.fill 16 0)) readFirst
      (f := fun q => { q with timerAt := q.timerAt + 16 }) (s := s) rfl
    have written := portWork_written p (Table.fill 16 0) readFirst
      (fun q => { q with timerAt := q.timerAt + 16 }) s
    refine ⟨_, congrArg Host.Outcome.next (internalTimerPeriod_due readFirst period),
      eq_of_worksPort (portWork_modSap_frame _ _ _ _ _), worked.sap_other,
      congrArg (·.timerAt) worked.sap, worked.output_lost lost,
      (congrArg (·.present) worked.sap).trans lost, fun k => ⟨?_, ?_⟩, ?_, ?_, worked.entry_other, ?_,
      portWork_modSap_tells _ _ _ _ _, worked.flag_other, ?_⟩
    · exact written.index k (List.mem_finRange k)
    · exact (written.read wf k (List.mem_finRange k)).trans (Table.look_fill 0 k)
    · exact fun r other => written.index_other r fun k _ => other k
    · exact fun a other => written.read_other a fun k _ => other k
    · rintro u rfl
      exact worked.entry
    · rintro u rfl
      exact worked.flag

/-! ## Regain (R65) -/

/-- The frame start that regains a port, whichever work comes first: it writes nothing. -/
theorem regainPort_order (p : SapId) (readFirst : Bool) (s : State) :
    regainPort p readFirst s = regainPort p true s := by
  cases readFirst <;> rfl

/-- Settles O47: the regaining frame start is the work of a port that writes nothing. -/
theorem regainTakesEightSteadyFrames : Obligations.RegainTakesEightSteadyFrames := by
  intro p xs readFirst n s on lost counted
  have count : (s.saps.look p).regainAfter s.now = n := counted.symm
  have start : exec (.wordClockFrameStart p xs readFirst) s = .next (lostFrameStart p readFirst s) := by
    show Host.Outcome.next (wordClockFrameStart p xs readFirst s) = _
    rw [wordClockFrameStart, if_pos on, if_neg (by simp [lost])]
  have worked := portWork_worked p none true
    (f := fun q => { q with present := true, regain := 0, frameOpen := true, clockAt := s.now })
    (s := s) rfl
  have unwritten := portWork_unwritten p true
    (fun q => { q with present := true, regain := 0, frameOpen := true, clockAt := s.now }) s
  refine ⟨fun few => ?_, fun eight => ⟨regainPort p true s, ?_, ?_, ?_, congrArg (·.present) worked.sap,
    congrArg (·.regain) worked.sap, congrArg (·.frameOpen) worked.sap, congrArg (·.clockAt) worked.sap,
    fun k => ⟨worked.output rfl k, worked.entry k, ?_⟩, worked.sap_other, worked.entry_other,
    portWork_modSap_tells _ _ _ _ _, worked.flag_other, worked.flag⟩⟩
  · rw [start, lostFrameStart, count, if_neg (by omega)]
  · rw [start, lostFrameStart, count, if_pos eight, regainPort_order]
  · show Host.Outcome.next (portRegain p s) = _
    rw [portRegain, if_pos (by simp [on, lost, count, eight]), regainPort_order]
  · exact eq_of_worksPort_unwritten (portWork_modSap_frame _ _ _ _ _) unwritten.1 unwritten.2
  · rw [srcValid_sapRing]
    exact congrArg (·.present) worked.sap

end Sys2Proof.Machine.PortAudio
end

section
/-! PROOFS. The commands and events about one patch entry (R74, R75, R79, R91) and the commands that answer or
write one setting (R61, R66, R67, R161, R168). -/

namespace Sys2Proof.Machine.Settings

/-! ## Operand fields (R175) -/

theorem asFin_eq_some {n k : Nat} {i : Fin n} (h : k = i.val) : asFin n k = some i := by
  subst h
  exact dif_pos i.isLt

theorem asFin_eq_none {n k : Nat} (h : n ≤ k) : asFin n k = none := dif_neg (Nat.not_lt.mpr h)

theorem destField_eq_some {v : BitVec 16} {d : DestId} (h : v.toNat = d.val) : destField v = some d :=
  asFin_eq_some h

theorem destField_eq_none {v : BitVec 16} (h : 256 ≤ v.toNat) : destField v = none := asFin_eq_none h

/-- R161: the two mask bits of no group are clear exactly below 64. -/
theorem high_bits_eq (a : Byte) : (a.getLsbD 6 || a.getLsbD 7) = decide (64 ≤ a.toNat) := by
  have bound := a.isLt
  rw [Bool.eq_iff_iff]
  simp only [BitVec.getLsbD, Nat.testBit_eq_decide_div_mod_eq, Bool.or_eq_true, decide_eq_true_eq]
  omega

/-- R168: the values of the guard field. -/
theorem lt_two_iff (a : Byte) : a.toNat < 2 ↔ a = 0 ∨ a = 1 := by
  bv_omega

/-! ## Commands on a control port -/

/-- The caller is the senior port, as a taken command's effect sees it (R97). -/
theorem isSenior_served {s : State} {c : CpId} (h : s.senior = some c) (code tag : Byte) :
    isSenior (served s c code tag) c = true := decide_eq_true h

section
variable {s : State} {c : CpId} {code tag : Byte} {effect : Effect} (taken : Takes s c)
include taken

/-- A taken command that is refused changes nothing but its port (R176). -/
theorem next_refused (r : Result)
    (h : effect (served s c code tag) = refuse r (served s c code tag)) :
    Host.Outcome.next (command c code tag effect s) =
      (.next (replied s c code tag r [] s) : Host.Outcome State Fault Refusal) :=
  congrArg Host.Outcome.next (command_refused taken code tag effect r h)

/-- A taken command that answers OK after a change of one entry. -/
theorem next_modEntry (d : DestId) (f : Entry → Entry)
    (h : effect (served s c code tag) = answer [] (modEntry d f (served s c code tag))) :
    Host.Outcome.next (command c code tag effect s) =
      (.next (replied s c code tag .ok [] (modEntry d f s)) : Host.Outcome State Fault Refusal) :=
  congrArg Host.Outcome.next (command_replied taken code tag effect .ok [] (modEntry d f s) h rfl)

end

/-! ## READ PORT (R67) -/

/-- Settles O43: the payload is read off the port, its first ring and the tone level. -/
theorem readPortAnswers : Obligations.ReadPortAnswers := by
  intro c tag b s taken
  constructor
  · intro p w named shared
    have payload : portPayload s p = [if (s.saps.look p).present then 0 else 1,
        BitVec.ofNat 8 (s.saps.look p).regain, BitVec.ofNat 8 (s.saps.look p).refLane.val] ++
          numBytes w.toNat ++ [BitVec.ofInt 8 s.toneLevel] := by
      have presence : boolByte (!(s.saps.look p).present) =
          if (s.saps.look p).present then 0 else 1 := by
        cases (s.saps.look p).present <;> rfl
      simp only [portPayload, shared 0, presence]
    refine congrArg Host.Outcome.next
      ((command_answered taken 0x30 tag (effectReadPort b) (portPayload s p) ?_).trans ?_)
    · have field : sapField b = some p := asFin_eq_some named
      rw [effectReadPort, field]
      rfl
    · rw [payload]
  · intro outside
    have field : sapField b = none := asFin_eq_none outside
    exact next_refused taken .badArg (by rw [effectReadPort, field])

/-! ## NUDGE and CHECK TEST (R75, R91) -/

theorem nudgeOk_iff (a : Int) : nudgeOk a = true ↔ -15 ≤ a ∧ a ≤ 16 ∧ a ≠ 0 := by
  simp [nudgeOk, and_assoc]

section
variable {c : CpId} {v : BitVec 16} {d : DestId} {a : Byte} {s : State} (dest : destField v = some d)
include dest

theorem effectNudge_badArg (bad : nudgeOk a.toInt = false) : effectNudge c v a s = refuse .badArg s := by
  simp only [effectNudge, dest, bad, Bool.not_false, if_true]

theorem effectNudge_inRange (good : nudgeOk a.toInt = true) : effectNudge c v a s =
    if s.holders.look (destItem d) ≠ some c then refuse .notOwner s
    else if (s.entries.look d).nudge.isSome then refuse .again s
    else answer [] (modEntry d (fun e => { e with nudge := some a.toInt }) s) := by
  simp only [effectNudge, dest, good, Bool.not_true, Bool.false_eq_true, if_false]

theorem effectCheckTest_senior (senior : isSenior s c = true) : effectCheckTest c v s =
    answer [] (modEntry d (fun e => { e with code := e.computedCode + 1 }) s) := by
  simp only [effectCheckTest, dest, senior, Bool.not_true, Bool.false_eq_true, if_false]

end

/-- Settles O40, check by check in the order of R75. -/
theorem nudgeAndCheckTestWriteOneField : Obligations.NudgeAndCheckTestWriteOneField := by
  refine ⟨fun c tag a v s taken above => ?_, fun c tag a v d s taken named => ⟨?_, ?_, ?_⟩⟩
  · have unnamed := destField_eq_none above
    exact ⟨next_refused taken .badArg (by simp only [effectNudge, unnamed]),
      next_refused taken .badArg (by simp only [effectCheckTest, unnamed])⟩
  · intro bad
    have bad : nudgeOk a.toInt = false := by
      rw [← Bool.not_eq_true, nudgeOk_iff]
      omega
    exact next_refused taken .badArg (effectNudge_badArg (destField_eq_some named) bad)
  · intro low high nonzero
    have effect (u : State) := effectNudge_inRange (c := c) (s := u) (destField_eq_some named)
      ((nudgeOk_iff a.toInt).mpr ⟨low, high, nonzero⟩)
    refine ⟨fun other => ?_, fun held pending => ?_, fun held free => ?_⟩
    · exact next_refused taken .notOwner ((effect _).trans (if_pos other))
    · exact next_refused taken .again
        ((effect _).trans ((if_neg (not_not.mpr held)).trans (if_pos pending)))
    · exact next_modEntry taken d _
        ((effect _).trans ((if_neg (not_not.mpr held)).trans
          (if_neg (by rw [served_entries, free]; exact Bool.false_ne_true))))
  · intro senior
    exact next_modEntry taken d _
      (effectCheckTest_senior (destField_eq_some named) (isSenior_served senior _ _))

/-! ## FADE_END and ENTRY_UPSET (R74, R79) -/

theorem modEntry_congr {d : DestId} {f g : Entry → Entry} {s : State}
    (h : f (s.entries.look d) = g (s.entries.look d)) : modEntry d f s = modEntry d g s := by
  rw [modEntry, h, modEntry]

/-- R79: an upset that changes a matching entry leaves a mismatch, as the check code separates. -/
theorem upset_mismatch {u : Upset} {e : Entry} (matched : e.matches = true) (changed : e.upset u ≠ e) :
    (e.upset u).matches = false := by
  obtain ⟨source, tag, delay⟩ := Config.checkCode_separates
  have code : e.code = Config.checkCode e.source e.tag e.delay := eq_of_beq matched
  rw [← Bool.not_eq_true]
  intro again
  apply changed
  have code' := eq_of_beq again
  cases u with
  | source v =>
    have same : e.source = v := source _ _ _ _ (code.symm.trans code')
    rw [Entry.upset, ← same]
  | tag v =>
    have same : e.tag = v := tag _ _ _ _ (code.symm.trans code')
    rw [Entry.upset, ← same]
  | delay v =>
    have same : e.delay = v := delay _ _ _ _ (code.symm.trans code')
    rw [Entry.upset, ← same]
  | code v =>
    have same : e.code = v := code.trans code'.symm
    rw [Entry.upset, ← same]

/-- Settles O42: both events are a change of one entry; an upset is judged by `upset_mismatch`. -/
theorem fadeEndAndUpsetTouchOneEntry : Obligations.FadeEndAndUpsetTouchOneEntry := by
  intro d u s
  refine ⟨fun f fading ended => ?_, fun f fading early => ?_, fun stopped => ?_, fun running => ?_⟩
  · refine congrArg Host.Outcome.next (modEntry_congr ?_)
    rw [fading, endFade, if_pos ended]
  · refine congrArg Host.Outcome.next (modEntry_congr ?_)
    rw [fading, endFade, if_neg (by omega), ← fading]
  · exact congrArg Host.Outcome.next (if_neg stopped)
  · have own : (modEntry d (Entry.upset u) s).entries.look d = (s.entries.look d).upset u :=
      modEntry_look_self d _ s
    refine ⟨modEntry d (Entry.upset u) s, congrArg Host.Outcome.next (if_pos running), rfl,
      fun k other => modEntry_look_ne _ s other.symm, ?_, fun matched changed => ?_⟩
    · rw [own]
      cases u <;> rfl
    · rw [own] at changed ⊢
      exact upset_mismatch matched changed

/-! ## The settings of the senior port (R61, R66, R161, R168) -/

theorem portQueued_iff (s : State) (p : SapId) : portQueued s p = true ↔
    ∃ l, ∃ x ∈ (s.takes.look l).allChanges, sapOf x.dest = some p := by
  simp [portQueued, forPort]

theorem toneOk_iff (a : Int) : toneOk a = true ↔ -30 ≤ a ∧ a ≤ -10 := by
  simp [toneOk]

section
variable {c : CpId} {a : Byte} {s : State}

theorem effectSetTone_badArg (bad : toneOk a.toInt = false) : effectSetTone c a s = refuse .badArg s := by
  simp only [effectSetTone, bad, Bool.not_false, if_true]

theorem effectSetTone_senior (good : toneOk a.toInt = true) (senior : isSenior s c = true) :
    effectSetTone c a s = answer [] { s with toneLevel := a.toInt } := by
  simp only [effectSetTone, good, senior, Bool.not_true, Bool.false_eq_true, if_false]

theorem effectSetLineMask_badArg (bad : 64 ≤ a.toNat) : effectSetLineMask c a s = refuse .badArg s := by
  rw [effectSetLineMask, high_bits_eq, if_pos (decide_eq_true bad)]

theorem effectSetLineMask_senior (good : a.toNat < 64) (senior : isSenior s c = true) :
    effectSetLineMask c a s = answer [] { s with lineMask := a.setWidth 6 } := by
  rw [effectSetLineMask, high_bits_eq, if_neg (by simpa using good), if_neg (by simp [senior])]

theorem effectSetGuard_badArg (bad : 2 ≤ a.toNat) : effectSetGuard c a s = refuse .badArg s := by
  have neither := mt (lt_two_iff a).mpr (Nat.not_lt.mpr bad)
  rw [effectSetGuard, if_pos (not_or.mp neither)]

theorem effectSetGuard_senior (good : a.toNat < 2) (senior : isSenior s c = true) :
    effectSetGuard c a s = answer [] { s with saveGuard := decide (a = 1) } := by
  have either := (lt_two_iff a).mp good
  rw [effectSetGuard, if_neg (not_and_or.mpr (either.imp not_not.mpr not_not.mpr)),
    if_neg (by simp [senior])]

theorem effectSetPortRef_badArg {b : Byte} (bad : 4 ≤ a.toNat ∨ 8 ≤ b.toNat) :
    effectSetPortRef c a b s = refuse .badArg s := by
  unfold effectSetPortRef
  rcases bad with port | lane
  · rw [show sapField a = none from asFin_eq_none port]
  · rw [show laneField b = none from asFin_eq_none lane]
    cases sapField a <;> rfl

theorem effectSetPortRef_senior {b : Byte} {p : SapId} {l : LaneId} (port : a.toNat = p.val)
    (lane : b.toNat = l.val) (senior : isSenior s c = true) : effectSetPortRef c a b s =
      if portQueued s p then refuse .queued s
      else answer [] (modSap p (fun q => { q with refLane := l }) s) := by
  have named : sapField a = some p := asFin_eq_some port
  have lane : laneField b = some l := asFin_eq_some lane
  rw [effectSetPortRef, named, lane]
  exact if_neg (by simp [senior])

end

/-- Settles O44, setting by setting. -/
theorem seniorSettingsAreWritten : Obligations.SeniorSettingsAreWritten := by
  intro c tag a b s taken
  refine ⟨fun senior => ⟨fun low high => ?_, fun mask => ?_, fun value => ?_,
    fun p l port lane => ⟨fun free => ?_, fun k x mem own => ?_⟩⟩, fun outside => ?_, fun mask => ?_,
    fun value => ?_, fun outside => ?_⟩
  · exact congrArg Host.Outcome.next (command_replied taken _ tag _ .ok [] { s with toneLevel := a.toInt }
      (effectSetTone_senior ((toneOk_iff _).mpr ⟨low, high⟩) (isSenior_served senior _ _)) rfl)
  · exact congrArg Host.Outcome.next (command_replied taken _ tag _ .ok []
      { s with lineMask := a.setWidth 6 }
      (effectSetLineMask_senior mask (isSenior_served senior _ _)) rfl)
  · exact congrArg Host.Outcome.next (command_replied taken _ tag _ .ok []
      { s with saveGuard := decide (a = 1) }
      (effectSetGuard_senior value (isSenior_served senior _ _)) rfl)
  · have unqueued : ¬ portQueued s p = true := by
      rw [portQueued_iff]
      rintro ⟨k, x, mem, own⟩
      exact free k x mem own
    exact congrArg Host.Outcome.next (command_replied taken _ tag _ .ok []
      (modSap p (fun q => { q with refLane := l }) s)
      ((effectSetPortRef_senior port lane (isSenior_served senior _ _)).trans (if_neg unqueued)) rfl)
  · have queued : portQueued s p = true := (portQueued_iff s p).mpr ⟨k, x, mem, own⟩
    exact next_refused taken .queued
      ((effectSetPortRef_senior port lane (isSenior_served senior _ _)).trans (if_pos queued))
  · have bad : toneOk a.toInt = false := by
      rw [← Bool.not_eq_true, toneOk_iff]
      omega
    exact next_refused taken .badArg (effectSetTone_badArg bad)
  · exact next_refused taken .badArg (effectSetLineMask_badArg mask)
  · exact next_refused taken .badArg (effectSetGuard_badArg value)
  · exact next_refused taken .badArg (effectSetPortRef_badArg outside)

end Sys2Proof.Machine.Settings
end

section
/-! PROOFS. The form of the patch table and of the waiting changes (R78, R92, R163): what one entry and one
lane's Take Unit have to hold in a phase, and which operations on them keep it. -/

namespace Sys2Proof.Machine.EntriesKept

/-! ## One entry and one lane's changes -/

/-- What a waiting change carries as its fade: CUT or a length of the table (R113). -/
def FadeCode (x : Change) : Prop := x.fade = 0 ∨ FadeLength x.fade

/-- An entry in form in a phase: while the engine is not running it is STEADY on S257 (R78, R92). -/
structure EntryFits (phase : Phase) (e : Entry) : Prop where
  form : EntryForm e
  steady : phase ≠ .running → e.source = 257 ∧ e.fade = none

/-- A lane's waiting changes in form in a phase: while the engine is not running there are none (R131). -/
structure TakeFits (phase : Phase) (t : TakeUnit) : Prop where
  fades : ∀ x ∈ t.allChanges, FadeCode x
  empty : phase ≠ .running → t.allChanges = []

theorem entriesForm_iff (s : State) : EntriesForm s ↔
    (∀ d, EntryFits s.phase (s.entries.look d)) ∧ ∀ l, TakeFits s.phase (s.takes.look l) := by
  constructor
  · rintro ⟨form, fades, stopped⟩
    exact ⟨fun d => ⟨form d, fun h => (stopped h).1 d⟩,
      fun l => ⟨fades l, fun h => (stopped h).2 l⟩⟩
  · rintro ⟨entries, takes⟩
    exact ⟨fun d => (entries d).form, fun l => (takes l).fades,
      fun h => ⟨fun d => (entries d).steady h, fun l => (takes l).empty h⟩⟩

theorem EntryFits.running {e : Entry} (form : EntryForm e) : EntryFits .running e :=
  ⟨form, fun h => absurd rfl h⟩

/-- Fade, nudge and health alone are in question (R78). -/
theorem entryForm_congr {e e' : Entry} (fade : e'.fade = e.fade) (nudge : e'.nudge = e.nudge)
    (health : e'.health = e.health) : EntryForm e' ↔ EntryForm e := by
  simp only [EntryForm, fade, nudge, health]

/-- An entry that is STEADY with no nudge is in form. -/
theorem entryForm_plain {e : Entry} (fade : e.fade = none) (nudge : e.nudge = none) : EntryForm e := by
  simp [EntryForm, fade, nudge]

/-- R76: a nudge moves the indices of an entry and is spent. -/
theorem EntryFits.nudged {phase : Phase} {e : Entry} (h : EntryFits phase e) : EntryFits phase e.nudged := by
  unfold Entry.nudged
  split
  · exact h
  · refine ⟨⟨fun g fading => ?_, fun a pending => by cases pending⟩, fun stopped => ?_⟩
    · obtain ⟨f, was, rfl⟩ := Option.map_eq_some_iff.mp fading
      exact h.form.1 f was
    · obtain ⟨source, steady⟩ := h.steady stopped
      exact ⟨source, by rw [steady, Option.map_none]⟩

theorem endFade_eq_some {o : Option Fade} {f : Fade} :
    endFade o = some f ↔ o = some f ∧ f.pos < f.length := by
  cases o with
  | none => simp [endFade]
  | some g =>
    simp only [endFade, Option.some.injEq]
    split_ifs with ended
    · simp only [false_iff]
      rintro ⟨rfl, before⟩
      omega
    · constructor
      · rintro ⟨⟩
        exact ⟨rfl, by omega⟩
      · exact fun h => congrArg some h.1

/-- R74: a fade that has reached its length ends. -/
theorem EntryFits.fadeEnded {phase : Phase} {e : Entry} (h : EntryFits phase e) :
    EntryFits phase { e with fade := endFade e.fade } := by
  refine ⟨⟨fun f fading => h.form.1 f (endFade_eq_some.mp fading).1, h.form.2⟩, fun stopped => ?_⟩
  obtain ⟨source, steady⟩ := h.steady stopped
  exact ⟨source, congrArg endFade steady⟩

/-- R68, R70, R73, R74: a move raises the position of a fade, which ends at its length. -/
theorem EntryFits.moved {phase : Phase} {e : Entry} (h : EntryFits phase e) (s : State) (n : Option Nat) :
    EntryFits phase (movedEntry s n e) := by
  refine ⟨⟨fun g fading => ?_, h.form.2⟩, fun stopped => ?_⟩
  · obtain ⟨moved, before⟩ := endFade_eq_some.mp fading
    obtain ⟨f, was, rfl⟩ := Option.map_eq_some_iff.mp moved
    obtain ⟨good, length, _⟩ := h.form.1 f was
    exact ⟨good, length, before⟩
  · obtain ⟨source, steady⟩ := h.steady stopped
    exact ⟨source, by simp only [movedEntry, steady, Option.map_none, endFade]⟩

/-- R88: a mark of SUSPECT ends the fade. -/
theorem EntryFits.suspected {phase : Phase} {e : Entry} (h : EntryFits phase e) :
    EntryFits phase e.suspected :=
  ⟨⟨fun _ fading => absurd fading (Option.some_ne_none _).symm, h.form.2⟩,
    fun stopped => ⟨(h.steady stopped).1, rfl⟩⟩

/-- R82: an applied change leaves a fade of its own length at position 0, or none. -/
theorem newFade_form {s : State} {e : Entry} {x : Change} {f : Fade} (code : FadeCode x)
    (h : newFade s e x = some f) : FadeLength f.length ∧ f.pos < f.length := by
  unfold newFade at h
  split_ifs at h with begins
  cases h
  have length : effectiveFade s e x = x.fade := by
    have := begins.2
    unfold effectiveFade at this ⊢
    split_ifs at this ⊢ with cut
    · exact absurd rfl this
    · rfl
  rw [length] at begins ⊢
  exact ⟨code.resolve_left begins.2, Nat.pos_of_ne_zero begins.2⟩

/-- R82 to R86: an applied change leaves its entry GOOD with the nudge as it was. -/
theorem entryForm_applied {s : State} {x : Change} {e : Entry} (code : FadeCode x) (h : EntryForm e) :
    EntryForm (appliedEntry s x e) := by
  have fields : (appliedEntry s x e).fade = newFade s e x ∧ (appliedEntry s x e).nudge = e.nudge ∧
      (appliedEntry s x e).health = .good := by
    unfold appliedEntry
    dsimp only
    split_ifs <;> exact ⟨rfl, rfl, rfl⟩
  obtain ⟨fade, nudge, good⟩ := fields
  refine ⟨fun f fading => ⟨good, newFade_form code (fade.symm.trans fading)⟩, fun a pending => ?_⟩
  exact h.2 a (nudge.symm.trans pending)

/-! ## The waiting changes of a lane (R113 to R130) -/

theorem mem_allChanges {t : TakeUnit} {x : Change} :
    x ∈ t.allChanges ↔ (∃ c, x ∈ t.staging.look c) ∨ ∃ b ∈ t.queue, x ∈ b.changes := by
  simp [TakeUnit.allChanges, Fin.exists_fin_succ, or_assoc]

theorem TakeFits.subset {phase : Phase} {t u : TakeUnit} (h : TakeFits phase t)
    (sub : u.allChanges ⊆ t.allChanges) : TakeFits phase u :=
  ⟨fun x mem => h.fades x (sub mem), fun stopped => List.subset_nil.mp (h.empty stopped ▸ sub)⟩

theorem allChanges_reload (t : TakeUnit) : t.reload.allChanges = t.allChanges := by
  obtain ⟨m, h, f, reload⟩ := t.reload_frame
  rw [reload]
  rfl

/-- Changes are only taken away where each staging batch and each queued batch is part of one that was
there. -/
theorem allChanges_subset {t u : TakeUnit} (staging : ∀ c, u.staging.look c ⊆ t.staging.look c)
    (queue : ∀ b ∈ u.queue, ∃ b' ∈ t.queue, b.changes ⊆ b'.changes) : u.allChanges ⊆ t.allChanges := by
  intro x mem
  rcases mem_allChanges.mp mem with ⟨c, staged⟩ | ⟨b, queued, inBatch⟩
  · exact mem_allChanges.mpr (.inl ⟨c, staging c staged⟩)
  · obtain ⟨b', was, sub⟩ := queue b queued
    exact mem_allChanges.mpr (.inr ⟨b', was, sub inBatch⟩)

/-- R122: the head leaves. -/
theorem allChanges_dropHead (t : TakeUnit) : t.dropHead.allChanges ⊆ t.allChanges := by
  rw [TakeUnit.dropHead, allChanges_reload]
  exact allChanges_subset (fun _ => List.Subset.refl _)
    fun b queued => ⟨b, List.mem_of_mem_tail queued, List.Subset.refl _⟩

/-- R129: everything leaves. -/
theorem allChanges_flushed (t : TakeUnit) : t.flushed.allChanges ⊆ t.allChanges := by
  rw [TakeUnit.flushed, allChanges_reload]
  exact allChanges_subset (fun c => by simp) fun b queued => by cases queued

/-- R126: a batch leaves. -/
theorem allChanges_cancelled (met : Bool) (k : Nat) (t : TakeUnit) :
    (t.cancelled met k).allChanges ⊆ t.allChanges := by
  have removed : TakeUnit.allChanges { t with queue := t.queue.eraseIdx k } ⊆ t.allChanges :=
    allChanges_subset (fun _ => List.Subset.refl _)
      fun b queued => ⟨b, List.mem_of_mem_eraseIdx queued, List.Subset.refl _⟩
  unfold TakeUnit.cancelled
  dsimp only
  split
  · rw [allChanges_reload]
    exact removed
  · exact removed

/-- R118: a port's staging batch loses changes. -/
theorem look_put_subset (staging : Table (List Change) 3) {c : CpId} {cs : List Change}
    (sub : cs ⊆ staging.look c) (k : CpId) : (staging.put c cs).look k ⊆ staging.look k := by
  rw [Table.look_put]
  split
  · rename_i own
    exact own ▸ sub
  · exact List.Subset.refl _

/-- R118: another list stands in a port's staging batch. -/
theorem allChanges_putStaging (t : TakeUnit) (c : CpId) {cs : List Change} (sub : cs ⊆ t.staging.look c) :
    TakeUnit.allChanges { t with staging := t.staging.put c cs } ⊆ t.allChanges :=
  allChanges_subset (look_put_subset t.staging sub) fun b queued => ⟨b, queued, List.Subset.refl _⟩

/-- R128: a port's changes for a destination leave. -/
theorem allChanges_withdrawn (c : CpId) (d : DestId) (t : TakeUnit) :
    (t.withdrawn c d).allChanges ⊆ t.allChanges := by
  have part (b : Batch) : (b.without c d).changes ⊆ b.changes := by
    unfold Batch.without
    split
    · exact List.filter_subset_self _
    · exact List.Subset.refl _
  have removed : TakeUnit.allChanges { t with
      staging := t.staging.put c (changesNotFor d (t.staging.look c))
      queue := (t.queue.map (Batch.without c d)).filter fun b => !b.changes.isEmpty } ⊆ t.allChanges := by
    refine allChanges_subset (look_put_subset t.staging (List.filter_subset_self _)) fun b queued => ?_
    obtain ⟨b', was, rfl⟩ := List.mem_map.mp (List.mem_of_mem_filter queued)
    exact ⟨b', was, part b'⟩
  unfold TakeUnit.withdrawn
  dsimp only
  split
  · rw [allChanges_reload]
    exact removed
  · exact removed

/-- R119: a staging batch goes to the tail of the queue. -/
theorem allChanges_closed (c : CpId) (delay : Nat) (t : TakeUnit) :
    (t.closed c delay).allChanges ⊆ t.allChanges := by
  have moved : TakeUnit.allChanges { t with
      staging := t.staging.put c []
      queue := t.queue ++ [⟨c, t.closureCounter, delay, t.staging.look c⟩] } ⊆ t.allChanges := by
    intro x mem
    rw [mem_allChanges] at mem ⊢
    rcases mem with ⟨k, staged⟩ | ⟨b, queued, inBatch⟩
    · have other : c ≠ k := by
        rintro rfl
        simp at staged
      rw [Table.look_put_ne _ _ other] at staged
      exact .inl ⟨k, staged⟩
    · rcases List.mem_append.mp queued with was | new
      · exact .inr ⟨b, was, inBatch⟩
      · rw [List.mem_singleton.mp new] at inBatch
        exact .inl ⟨c, inBatch⟩
  unfold TakeUnit.closed
  dsimp only
  split
  · exact moved
  · exact moved

/-- R116: a change is put into a port's staging batch. -/
theorem mem_allChanges_staged {t : TakeUnit} {c : CpId} {x y : Change}
    (mem : y ∈ TakeUnit.allChanges { t with staging := t.staging.put c (putChange x (t.staging.look c)) }) :
    y = x ∨ y ∈ t.allChanges := by
  have put {cs : List Change} (mem : y ∈ putChange x cs) : y = x ∨ y ∈ cs := by
    unfold putChange at mem
    split at mem
    · obtain ⟨z, was, rfl⟩ := List.mem_map.mp mem
      split
      · exact .inl rfl
      · exact .inr was
    · simpa [or_comm] using mem
  rcases mem_allChanges.mp mem with ⟨k, staged⟩ | queued
  · dsimp only at staged
    rw [Table.look_put] at staged
    split at staged
    · exact (put staged).imp_right fun was => mem_allChanges.mpr (.inl ⟨c, was⟩)
    · exact .inr (mem_allChanges.mpr (.inl ⟨k, staged⟩))
  · exact .inr (mem_allChanges.mpr (.inr queued))

/-- R175: a fade code of STAGE is one of the four lengths. -/
theorem changeOf_fade {dest source : BitVec 16} {fade tagRef : Byte} {delay : BitVec 16} {x : Change}
    (h : changeOf dest source fade tagRef delay = some x) : FadeCode x := by
  have lengths {n : Nat} (h : fadeField fade = some n) : n = 0 ∨ FadeLength n := by
    unfold fadeField at h
    split_ifs at h <;> cases h <;> simp [FadeLength]
  unfold changeOf at h
  split at h
  · rename_i code _ _
    cases h
    exact lengths code
  · cases h

end Sys2Proof.Machine.EntriesKept
end

section
/-! PROOFS. Every step keeps the form of the patch table and of the waiting changes (R78, R92, R163): each
operation that touches an entry or a lane's changes, and then each command. -/

namespace Sys2Proof.Machine.EntriesKept

/-- From `s` to `t` the form of the entries and of the waiting changes is kept. -/
structure KeepsEntries (s t : State) : Prop where
  form : EntriesForm s → EntriesForm t

theorem KeepsEntries.refl (s : State) : KeepsEntries s s := ⟨id⟩

theorem KeepsEntries.trans {s t u : State} (h : KeepsEntries s t) (k : KeepsEntries t u) :
    KeepsEntries s u := ⟨fun form => k.form (h.form form)⟩

/-- Entries, Take Units and phase as they were. -/
theorem KeepsEntries.same {s t : State} (entries : t.entries = s.entries) (takes : t.takes = s.takes)
    (phase : t.phase = s.phase) : KeepsEntries s t :=
  ⟨by rw [entriesForm_iff, entriesForm_iff, entries, takes, phase]; exact id⟩

/-- Where an operation touches the entries alone, each of them has to stay in form. -/
theorem KeepsEntries.ofEntries {s t : State}
    (entries : ∀ d, EntryFits s.phase (s.entries.look d) → EntryFits s.phase (t.entries.look d))
    (takes : t.takes = s.takes) (phase : t.phase = s.phase) : KeepsEntries s t := by
  refine ⟨fun form => ?_⟩
  rw [entriesForm_iff] at form ⊢
  rw [takes, phase]
  exact ⟨fun d => entries d (form.1 d), form.2⟩

/-- Where an operation touches the Take Units alone, each of them has to stay in form. -/
theorem KeepsEntries.ofTakes {s t : State}
    (takes : ∀ l, TakeFits s.phase (s.takes.look l) → TakeFits s.phase (t.takes.look l))
    (entries : t.entries = s.entries) (phase : t.phase = s.phase) : KeepsEntries s t := by
  refine ⟨fun form => ?_⟩
  rw [entriesForm_iff] at form ⊢
  rw [entries, phase]
  exact ⟨form.1, fun l => takes l (form.2 l)⟩

/-- First a change of other blocks, which the goal names, then an operation that keeps the form. -/
theorem KeepsEntries.after {s t u : State} (k : KeepsEntries t u) (entries : t.entries = s.entries)
    (takes : t.takes = s.takes) (phase : t.phase = s.phase) : KeepsEntries s u :=
  (same entries takes phase).trans k

/-- First an operation that keeps the form, then a change of other blocks. -/
theorem KeepsEntries.before {s t u : State} (h : KeepsEntries s t) (entries : u.entries = t.entries)
    (takes : u.takes = t.takes) (phase : u.phase = t.phase) : KeepsEntries s u :=
  h.trans (same entries takes phase)

theorem KeepsEntries.foldl {α : Type} (f : State → α → State) (h : ∀ s a, KeepsEntries s (f s a))
    (l : List α) (s : State) : KeepsEntries s (l.foldl f s) :=
  foldl_relates _ KeepsEntries.refl (fun _ _ _ => .trans) f h l s

/-! ## One entry, one Take Unit, and the units beside them -/

theorem modEntry_keeps {d : DestId} {f : Entry → Entry} {s : State}
    (h : ∀ e, EntryFits s.phase e → EntryFits s.phase (f e)) : KeepsEntries s (modEntry d f s) := by
  refine .ofEntries (fun k fits => ?_) rfl rfl
  rw [modEntry_look]
  split
  · rename_i own
    exact h _ (own ▸ fits)
  · exact fits

/-- A Take Unit that takes no change in keeps the form. -/
theorem modTake_keeps {l : LaneId} {f : TakeUnit → TakeUnit} {s : State}
    (h : (f (s.takes.look l)).allChanges ⊆ (s.takes.look l).allChanges) :
    KeepsEntries s (modTake l f s) := by
  refine .ofTakes (fun k fits => ?_) rfl rfl
  rw [modTake_look]
  split
  · rename_i own
    exact (own ▸ fits).subset h
  · exact fits

/-- Marks, timer and hold reasons of a Take Unit hold no change. -/
theorem modTake_marks_keeps {l : LaneId} {f : TakeUnit → TakeUnit} {s : State}
    (h : ∀ t, (f t).allChanges = t.allChanges) : KeepsEntries s (modTake l f s) :=
  modTake_keeps ((h _).symm ▸ List.Subset.refl _)

section
variable (s : State)

theorem modLane_keeps (l : LaneId) (f : Lane → Lane) : KeepsEntries s (modLane l f s) := .same rfl rfl rfl

theorem modReader_keeps (l : LaneId) (f : Reader → Reader) : KeepsEntries s (modReader l f s) :=
  .same rfl rfl rfl

theorem modWriter_keeps (l : LaneId) (f : Writer → Writer) : KeepsEntries s (modWriter l f s) :=
  .same rfl rfl rfl

theorem modSap_keeps (p : SapId) (f : Sap → Sap) : KeepsEntries s (modSap p f s) := .same rfl rfl rfl

theorem setNotice_keeps (c : CpId) (n : Notice) : KeepsEntries s (setNotice c n s) := .same rfl rfl rfl

end

theorem setFlag_keeps (f : FaultFlag) (s : State) : KeepsEntries s (setFlag f s) := by
  obtain ⟨v, p, h⟩ := setFlag_frame f s
  rw [h]
  exact .same rfl rfl rfl

theorem laneNotice_keeps (l : LaneId) (s : State) : KeepsEntries s (laneNotice l s) := by
  obtain ⟨p, h⟩ := laneNotice_frame l s
  rw [h]
  exact .same rfl rfl rfl

theorem countUp_keeps (r : TagRef) (s : State) : KeepsEntries s (countUp r s) := by
  obtain ⟨g, h⟩ := countUp_frame r s
  rw [h]
  exact .same rfl rfl rfl

theorem endChanges_keeps (cs : List Change) (s : State) : KeepsEntries s (endChanges cs s) := by
  obtain ⟨g, h⟩ := endChanges_frame cs s
  rw [h]
  exact .same rfl rfl rfl

theorem KeepsEntries.ofRings {s t : State} (h : WritesRings s t) : KeepsEntries s t := by
  obtain ⟨m, w, rfl⟩ := h
  exact .same rfl rfl rfl

theorem KeepsEntries.ofClears {s t : State} (h : ClearsFlags s t) : KeepsEntries s t := by
  obtain ⟨v, p, f, rfl⟩ := h
  exact .same rfl rfl rfl

/-- At the reset every entry is STEADY on S257 with no nudge, and no change waits (R78, R114). -/
theorem blockReset_keeps (s : State) (pending : List Instr) (now choices : Nat) (phase : Phase)
    (low : Bool) (senior : Option CpId) (store : StoreContent) :
    KeepsEntries s (State.blockReset pending now choices phase low senior store) := by
  refine ⟨fun _ => (entriesForm_iff _).mpr ⟨fun d => ?_, fun l => ?_⟩⟩
  · simp only [State.blockReset, Table.look_fill]
    exact ⟨entryForm_plain rfl rfl, fun _ => ⟨rfl, rfl⟩⟩
  · have none : takeAtReset.allChanges = [] := by decide
    simp only [State.blockReset, Table.look_fill]
    exact ⟨fun x mem => absurd (none ▸ mem) List.not_mem_nil, fun _ => none⟩

/-! ## The sample path (R68, R70) -/

theorem moveEntry_keeps (n : Option Nat) (d : DestId) (s : State) : KeepsEntries s (moveEntry n d s) := by
  have moved : KeepsEntries s (modEntry d (movedEntry s n) s) := modEntry_keeps fun e h => h.moved s n
  unfold moveEntry
  exact ite_relates _ _ _ _ _ (moved.trans (setFlag_keeps _ _)) moved

theorem silentAdvance_keeps (n : Nat) (d : DestId) (s : State) : KeepsEntries s (silentAdvance n d s) :=
  ite_relates _ _ _ _ _ (.refl s) (moveEntry_keeps _ d s)

theorem readDests_keeps (ds : List DestId) (s : State) : KeepsEntries s (readDests ds s).2 := by
  induction ds generalizing s with
  | nil => exact .refl s
  | cons d ds ih => exact (moveEntry_keeps none d s).trans (ih _)

/-- R76. -/
theorem applyNudges_keeps (l : LaneId) (s : State) : KeepsEntries s (applyNudges l s) := by
  unfold applyNudges
  refine .ofEntries (fun d fits => ?_) rfl rfl
  rw [Table.look_gen]
  split
  · exact fits.nudged
  · exact fits

/-! ## Sound cells and lines -/

theorem soundCell_keeps (l : LaneId) (words : List LaneWord) (s : State) :
    KeepsEntries s (soundCell l words s) := by
  unfold soundCell
  refine ite_relates _ _ _ _ _ ?_ (.refl s)
  split
  · exact .refl s
  · exact .refl s
  · exact (modReader_keeps s l _).trans (setFlag_keeps _ _)
  · rename_i c _
    obtain ⟨r, m, i, h⟩ := takeCell_frame l c s
    rw [h]
    exact .same rfl rfl rfl

/-- R49: a set is read off the destinations of its group. -/
theorem emitSet_keeps (l : LaneId) (g : GroupId) (s : State) : KeepsEntries s (emitSet l g s).2 := by
  unfold emitSet
  split
  · exact .refl s
  · exact (readDests_keeps (groupDests l g) s).trans (modWriter_keeps _ l _)

theorem emitSets_keeps (l : LaneId) (g : GroupId) (n : Nat) (s : State) :
    KeepsEntries s (emitSets l g n s).2 := by
  induction n generalizing s with
  | zero => exact .refl s
  | succ n ih => exact (emitSet_keeps l g s).trans (ih _)

theorem emitCells_keeps (l : LaneId) (c : FormatClass) (i : Nat) (gs : List GroupId) (s : State) :
    KeepsEntries s (emitCells l c i gs s).2 := by
  induction gs generalizing s with
  | nil => exact .refl s
  | cons g gs ih =>
    exact ((emitSets_keeps l g (cellSets c i) s).trans (modWriter_keeps _ l _)).trans (ih _)

theorem putLine_keeps (l : LaneId) (line : FeedLine) (s : State) : KeepsEntries s (putLine l line s) := by
  have carry : KeepsEntries s (carryLine l line s) := modLane_keeps s l _
  have crowded (u : State) : KeepsEntries u (crowd l u) := by
    unfold crowd
    exact ite_relates _ _ _ _ _ ((modWriter_keeps u l _).trans (setFlag_keeps _ _)) (modWriter_keeps u l _)
  have build (c : FormatClass) : KeepsEntries s (buildLine l c line s) := by
    have emitted := emitCells_keeps l c (s.writers.look l).linePos
      (planLine c (s.lanes.look l).plan (s.readers.look l).handed).emitted s
    unfold buildLine
    exact (ite_relates _ _ _ _ _ (emitted.trans (crowded _)) emitted).trans (modLane_keeps _ l _)
  unfold putLine
  split
  · exact ite_relates _ _ _ _ _ (build _) carry
  · exact carry

theorem cellLine_keeps (l : LaneId) (line : FeedLine) (s : State) : KeepsEntries s (cellLine l line s) := by
  unfold cellLine
  split
  · exact .refl s
  · exact modLane_keeps s l _
  · exact ite_relates _ _ _ _ _ ((putLine_keeps l line s).before rfl rfl rfl) (modLane_keeps s l _)

/-! ## Take queues and lane states -/

/-- R129. -/
theorem flush_keeps (l : LaneId) (s : State) : KeepsEntries s (flush l s) := by
  unfold flush
  exact ((modTake_keeps (allChanges_flushed _)).trans (endChanges_keeps _ _)).trans
    (.foldl (fun s c => setNotice c .cancelled s) (fun s c => setNotice_keeps s c _) _ _)

/-- R14. -/
theorem enterParked_keeps (l : LaneId) (cause : ParkCause) (s : State) :
    KeepsEntries s (enterParked l cause s) := by
  have parked (f : Lane → Lane) :
      KeepsEntries s (modTake l (fun t => { t with holdPark := true }) (modLane l f s)) :=
    (modLane_keeps s l f).trans (modTake_marks_keeps fun _ => rfl)
  unfold enterParked
  exact (ite_relates _ _ _ _ _ ((parked _).trans (flush_keeps l _)) (parked _)).trans (laneNotice_keeps l _)

/-- R16. -/
theorem leaveParked_keeps (l : LaneId) (s : State) : KeepsEntries s (leaveParked l s) :=
  (modLane_keeps s l _).trans (modTake_marks_keeps fun _ => rfl)

/-- R10, R13, R15. -/
theorem enterRun_keeps (l : LaneId) (c : FormatClass) (s : State) : KeepsEntries s (enterRun l c s) := by
  have left : KeepsEntries s (if (s.lanes.look l).state = .parked then leaveParked l s else s) :=
    ite_relates _ _ _ _ _ (leaveParked_keeps l s) (.refl s)
  unfold enterRun
  exact (left.trans (modLane_keeps _ l _)).trans (laneNotice_keeps l _)

/-- R12. -/
theorem departRun_keeps (l : LaneId) (s : State) : KeepsEntries s (departRun l s) :=
  (modReader_keeps s l _).trans (modWriter_keeps _ l _)

/-- R11. -/
theorem loseLock_keeps (l : LaneId) (s : State) : KeepsEntries s (loseLock l s) := by
  have departed : KeepsEntries s (setFlag (.lockLost l) (departRun l s)) :=
    (departRun_keeps l s).trans (setFlag_keeps _ _)
  unfold loseLock
  exact ite_relates _ _ _ _ _ (departed.trans (enterParked_keeps l _ _))
    ((departed.trans (modLane_keeps _ l _)).trans (laneNotice_keeps l _))

/-- R10, R13. -/
theorem formatChange_keeps (l : LaneId) (s : State) : KeepsEntries s (formatChange l s) :=
  (setFlag_keeps _ s).trans (enterParked_keeps l _ _)

/-- R8, R13, R15. -/
theorem laneWork_keeps (l : LaneId) (s : State) : KeepsEntries s (laneWork l s) := by
  unfold laneWork
  split
  · exact ite_relates _ _ _ _ _ (enterParked_keeps l _ s) (modLane_keeps s l _)
  · unfold parkedWork
    dsimp only
    split
    · exact ite_relates _ _ _ _ _ (enterRun_keeps l _ s) (modLane_keeps s l _)
    · exact modLane_keeps s l _
  · exact .refl s

/-! ## Frames of a lane -/

/-- R31, R50: the destinations of the lane advance over what the frame that ends did not read. -/
theorem closeFrame_keeps (l : LaneId) (s : State) : KeepsEntries s (closeFrame l s) := by
  have padded := KeepsEntries.ofRings (settleTracks_frame l (List.finRange 24) s)
  have settle : KeepsEntries s (settleFrame l s) := by
    unfold settleFrame
    exact (ite_relates _ _ _ _ _ (padded.trans (setFlag_keeps _ _)) padded).trans (modReader_keeps _ l _)
  have complete (u : State) : KeepsEntries u (completeFrame l u) := by
    unfold completeFrame
    exact (KeepsEntries.foldl _ (fun s t => silentAdvance_keeps _ _ s) _ u).trans (modWriter_keeps _ l _)
  exact settle.trans (complete _)

/-- R8: a frame start, whole. -/
theorem frameStart_keeps (l : LaneId) (s : State) : KeepsEntries s (frameStart l s) := by
  have evaluate (u : State) : KeepsEntries u (evaluateFrame l u) := modReader_keeps u l _
  have latch (v u : State) : KeepsEntries u (latchTags v l u) := modWriter_keeps u l _
  have crowding (u : State) : KeepsEntries u (closeCrowding l u) :=
    ite_relates _ _ _ _ _ (modWriter_keeps u l _) (.refl u)
  have work : KeepsEntries s (frameWork l s) := by
    unfold frameWork
    exact (((closeFrame_keeps l s).trans (evaluate _)).trans (latch _ _)).trans (crowding _)
  unfold frameStart
  exact ((work.trans (laneWork_keeps l _)).trans (modLane_keeps _ l _)).trans
    (modTake_marks_keeps fun _ => rfl)

theorem runAtInput_keeps (l : LaneId) (c : FormatClass) (s : State) :
    KeepsEntries s (runAtInput l c s) := by
  have entered := enterRun_keeps l c s
  unfold runAtInput
  exact ite_relates _ _ _ _ _ (entered.trans (frameStart_keeps l _)) (entered.trans (modLane_keeps _ l _))

theorem inputInRun_keeps (l : LaneId) (d : Detector) (lost : Bool) (s : State) :
    KeepsEntries s (inputInRun l d lost s) := by
  have opened : KeepsEntries s (if opensFrame s l then frameStart l s else s) :=
    ite_relates _ _ _ _ _ (frameStart_keeps l s) (.refl s)
  have judged : KeepsEntries s (modLane l (fun n => { n with detector := d })
      (if opensFrame s l then frameStart l s else s)) := opened.trans (modLane_keeps _ l _)
  unfold inputInRun
  exact ite_relates _ _ _ _ _ (judged.trans (loseLock_keeps l _))
    (ite_relates _ _ _ _ _ judged (judged.trans (modLane_keeps _ l _)))

theorem inputInSeek_keeps (l : LaneId) (d : Detector) (s : State) :
    KeepsEntries s (inputInSeek l d s) := by
  unfold inputInSeek
  split
  · exact ite_relates _ _ _ _ _ (runAtInput_keeps l _ s) (formatChange_keeps l s)
  · exact .refl s

theorem inputInCoast_keeps (l : LaneId) (d : Detector) (s : State) :
    KeepsEntries s (inputInCoast l d s) := by
  unfold inputInCoast
  split
  · exact ite_relates _ _ _ _ _ (runAtInput_keeps l _ s) (formatChange_keeps l s)
  · exact .refl s

theorem inputFrameStart_keeps (l : LaneId) (s : State) : KeepsEntries s (inputFrameStart l s) := by
  have begin (u : State) : KeepsEntries u (beginInput l u) := .same rfl rfl rfl
  have judged (d : Detector) : KeepsEntries s (modLane l (fun n => { n with detector := d }) s) :=
    modLane_keeps s l _
  unfold inputFrameStart
  dsimp only
  refine ite_relates _ _ _ _ _ (KeepsEntries.trans ?_ (begin _)) (.refl s)
  split
  · exact inputInRun_keeps l _ _ s
  · exact (judged _).trans (inputInSeek_keeps l _ _)
  · exact (judged _).trans (inputInCoast_keeps l _ _)
  · exact judged _

theorem lateFrameStart_keeps (l : LaneId) (s : State) : KeepsEntries s (lateFrameStart l s) := by
  unfold lateFrameStart
  exact ite_relates _ _ _ _ _
    (ite_relates _ _ _ _ _
      (((frameStart_keeps l s).trans (modLane_keeps _ l _)).trans (loseLock_keeps l _))
      (modLane_keeps s l _)) (.refl s)

/-! ## Applications (R82 to R86, R120, R122) -/

/-- The engine runs: an applied change leaves its entry in form. -/
theorem applyChange_keeps {x : Change} {s : State} (running : s.phase = .running) (code : FadeCode x) :
    KeepsEntries s (applyChange x s) := by
  obtain ⟨g, counted⟩ := moveCount_frame (s.entries.look x.dest).counted
    (newTagRef s (s.entries.look x.dest) x).2 (modEntry x.dest (appliedEntry s x) s)
  unfold applyChange
  dsimp only
  rw [counted]
  refine (modEntry_keeps fun e h => ?_).before rfl rfl rfl
  rw [running]
  exact .running (entryForm_applied code h.form)

/-- While the engine is not running there is no change to apply. -/
theorem applyChanges_keeps {cs : List Change} {s : State} (codes : ∀ x ∈ cs, FadeCode x)
    (stopped : s.phase ≠ .running → cs = []) : KeepsEntries s (applyChanges cs s) := by
  induction cs generalizing s with
  | nil => exact .refl s
  | cons x xs ih =>
    have running : s.phase = .running := by
      by_contra h
      cases stopped h
    obtain ⟨e, g, applied⟩ := applyChange_frame x s
    obtain ⟨g', ended⟩ := countDown_frame (x.tag.getD .none) (applyChange x s)
    have first : KeepsEntries s (endChange x (applyChange x s)) := by
      rw [endChange, ended]
      exact (applyChange_keeps running (codes x (List.mem_cons_self ..))).before rfl rfl rfl
    have still : (endChange x (applyChange x s)).phase = .running := by
      rw [endChange, ended, applied]
      exact running
    exact first.trans (ih (fun y mem => codes y (List.mem_cons_of_mem x mem)) fun h => absurd still h)

theorem applyHead_keeps (l : LaneId) (s : State) : KeepsEntries s (applyHead l s) := by
  unfold applyHead
  split
  · exact .refl s
  · rename_i b rest queue
    refine ⟨fun form => ?_⟩
    have fits := ((entriesForm_iff s).mp form).2 l
    have waiting : b.changes ⊆ (s.takes.look l).allChanges := fun x mem =>
      mem_allChanges.mpr (.inr ⟨b, queue ▸ List.mem_cons_self .., mem⟩)
    have applied : KeepsEntries s (applyChanges b.changes s) :=
      applyChanges_keeps (fun x mem => fits.fades x (waiting mem))
        fun h => List.subset_nil.mp (fits.empty h ▸ waiting)
    exact ((applied.trans (modTake_keeps (allChanges_dropHead _))).before rfl rfl rfl).form form

/-- R120: the work of a take timer. -/
theorem takeTimerWork_keeps (l : LaneId) (s : State) : KeepsEntries s (takeTimerWork l s) := by
  unfold takeTimerWork
  dsimp only
  split_ifs
  · exact modTake_marks_keeps fun _ => rfl
  · exact .refl s
  · split
    · exact .refl s
    · exact applyHead_keeps l s
    · exact modTake_marks_keeps fun _ => rfl

theorem switchPoint_keeps (l : LaneId) (s : State) : KeepsEntries s (switchPoint l s) := by
  have moved : KeepsEntries s (applyNudges l (modLane l Lane.planCurrent s)) :=
    (modLane_keeps s l _).trans (applyNudges_keeps l _)
  unfold switchPoint
  exact ite_relates _ _ _ _ _
    ((ite_relates _ _ _ _ _ (moved.trans (takeTimerWork_keeps l _)) moved).trans (modLane_keeps _ l _))
    (.refl s)

theorem take_keeps (l : LaneId) (s : State) : KeepsEntries s (take l s) :=
  ite_relates _ _ _ _ _ ((modLane_keeps s l _).trans (applyHead_keeps l _)) (.refl s)

/-! ## Audio ports (R63, R64, R65) -/

theorem portWork_keeps (p : SapId) (xs : Option (Table Sample 16)) (readFirst : Bool) (s : State) :
    KeepsEntries s (portWork p xs readFirst s) := by
  have read (u : State) : KeepsEntries u (readSlots p u) := by
    unfold readSlots
    exact (readDests_keeps (portDests p) u).trans (modSap_keeps _ p _)
  have write (xs : Table Sample 16) (u : State) : KeepsEntries u (writeSlots p xs u) :=
    .ofRings (writeSlots_frame p xs u)
  match xs, readFirst with
  | none, false => exact read s
  | none, true => exact read s
  | some xs, false => exact (write xs s).trans (read _)
  | some xs, true => exact (read s).trans (write xs _)

theorem wordClockFrameStart_keeps (p : SapId) (xs : Table Sample 16) (readFirst : Bool) (s : State) :
    KeepsEntries s (wordClockFrameStart p xs readFirst s) := by
  have work (f : Sap → Sap) (ys : Option (Table Sample 16)) :
      KeepsEntries s (portWork p ys readFirst (modSap p f s)) :=
    (modSap_keeps s p f).trans (portWork_keeps p ys readFirst _)
  unfold wordClockFrameStart
  exact ite_relates _ _ _ _ _
    (ite_relates _ _ _ _ _ (work _ _) (ite_relates _ _ _ _ _ (work _ _) (modSap_keeps s p _))) (.refl s)

theorem portRegain_keeps (p : SapId) (s : State) : KeepsEntries s (portRegain p s) := by
  unfold portRegain regainPort
  exact ite_relates _ _ _ _ _ ((modSap_keeps s p _).trans (portWork_keeps p none false _)) (.refl s)

theorem portClockLost_keeps (p : SapId) (s : State) : KeepsEntries s (portClockLost p s) :=
  ite_relates _ _ _ _ _ ((modSap_keeps s p _).trans (setFlag_keeps _ _)) (.refl s)

theorem internalTimerPeriod_keeps (p : SapId) (readFirst : Bool) (s : State) :
    KeepsEntries s (internalTimerPeriod p readFirst s) := by
  unfold internalTimerPeriod
  exact ite_relates _ _ _ _ _ ((modSap_keeps s p _).trans (portWork_keeps p _ readFirst _)) (.refl s)

/-! ## The patch table's own events, and saves -/

/-- R87, R88. -/
theorem scrubVisit_keeps (s : State) : KeepsEntries s (scrubVisit s) := by
  have mark : KeepsEntries s (setFlag .entryCheck (modEntry s.scrubPos Entry.suspected s)) :=
    (modEntry_keeps fun e h => h.suspected).trans (setFlag_keeps _ _)
  have visit : KeepsEntries s (visitEntry s.scrubPos s) :=
    ite_relates _ _ _ _ _ (mark.before rfl rfl rfl) (.refl s)
  exact ite_relates _ _ _ _ _ (visit.before rfl rfl rfl) (.refl s)

/-- R79: an upset leaves fade, nudge and health. -/
theorem entryUpset_keeps (d : DestId) (u : Upset) (s : State) : KeepsEntries s (entryUpset d u s) := by
  unfold entryUpset
  split
  · rename_i running
    refine modEntry_keeps fun e h => ?_
    rw [running]
    refine .running ((entryForm_congr ?_ ?_ ?_).mpr h.form) <;> cases u <;> rfl
  · exact .refl s

theorem finishSave_keeps (ok : Bool) (v : Save) (s : State) : KeepsEntries s (finishSave ok v s) := by
  have placed (r : Result) (u : State) : KeepsEntries u (placeSave v.caller r u) := by
    unfold placeSave
    split <;> exact .same rfl rfl rfl
  unfold finishSave
  exact ite_relates _ _ _ _ _ ((placed _ _).after rfl rfl rfl)
    (((placed .saveFailed _).trans (setFlag_keeps _ _)).after rfl rfl rfl)

theorem saveComplete_keeps (readBack : Bool) (s : State) : KeepsEntries s (saveComplete readBack s) := by
  unfold saveComplete
  split
  · exact .refl s
  · exact finishSave_keeps _ _ s

theorem saveTimeout_keeps (s : State) : KeepsEntries s (saveTimeout s) := by
  unfold saveTimeout
  split
  · exact .refl s
  · exact ite_relates _ _ _ _ _ (finishSave_keeps _ _ s) (.refl s)

/-! ## Claims and liveness -/

/-- R128. -/
theorem withdrawItem_keeps (c : CpId) (i : ItemId) (s : State) : KeepsEntries s (withdrawItem c i s) := by
  unfold withdrawItem
  split
  · unfold withdraw
    dsimp only
    split
    · exact .refl s
    · exact ((modTake_keeps (allChanges_withdrawn c _ _)).trans (endChanges_keeps _ _)).before rfl rfl rfl
  · exact .refl s

/-- R99. -/
theorem freeItems_keeps (c : CpId) (items : List ItemId) (s : State) :
    KeepsEntries s (freeItems c items s) := by
  have freed (u : State) (i : ItemId) : KeepsEntries u (freeItem c i u) :=
    (withdrawItem_keeps c i (setHolder i none u)).after rfl rfl rfl
  exact .foldl _ freed _ s

/-- R100. -/
theorem seizeItem_keeps (c : CpId) (i : ItemId) (s : State) : KeepsEntries s (seizeItem c i s) := by
  unfold seizeItem
  split
  · exact .same rfl rfl rfl
  · exact ite_relates _ _ _ _ _ (.refl s) ((withdrawItem_keeps _ i _).after rfl rfl rfl)

/-- R106. -/
theorem portLate_keeps (c : CpId) (s : State) : KeepsEntries s (portLate c s) := by
  obtain ⟨p, v, h⟩ := portLate_frame c s
  rw [h]
  exact .same rfl rfl rfl

/-- R107. -/
theorem portLost_keeps (c : CpId) (s : State) : KeepsEntries s (portLost c s) := by
  have freed : KeepsEntries s (freeItems c (List.finRange 264)
      (modPort c (fun p => { p with liveness := .lost }) s)) :=
    .after (freeItems_keeps c _ _) rfl rfl rfl
  have orphaned (u : State) : KeepsEntries u (dropAuthor c u) := by
    unfold dropAuthor
    exact .same rfl rfl rfl
  have lost : KeepsEntries s (becomeLost c s) := by
    unfold becomeLost
    refine .trans (.trans ?_ (orphaned _)) (setFlag_keeps _ _)
    exact ite_relates _ _ _ _ _ freed (freed.trans (setNotice_keeps _ c _))
  exact ite_relates _ _ _ _ _ lost (.refl s)

/-! ## Start-up (R169) -/

theorem powerUp_keeps (straps : BitVec 2) (s : State) : KeepsEntries s (powerUp straps s) :=
  ite_relates _ _ _ _ _ (blockReset_keeps s _ _ _ _ _ _ _) (blockReset_keeps s _ _ _ _ _ _ _)

theorem resetNLow_keeps (s : State) : KeepsEntries s (resetNLow s) :=
  ite_relates _ _ _ _ _ (.same rfl rfl rfl) (blockReset_keeps s _ _ _ _ _ _ _)

theorem resetNRelease_keeps (straps : BitVec 2) (s : State) : KeepsEntries s (resetNRelease straps s) :=
  ite_relates _ _ _ _ _ (blockReset_keeps s _ _ _ _ _ _ _) (.same rfl rfl rfl)

/-- Every entry STEADY with no nudge and no waiting change: what the load leaves (R92, R93). -/
structure Plain (s : State) : Prop where
  entries : ∀ d, (s.entries.look d).fade = none ∧ (s.entries.look d).nudge = none
  takes : ∀ l, (s.takes.look l).allChanges = []

theorem Plain.entriesForm {s : State} (h : Plain s) (running : s.phase = .running) : EntriesForm s := by
  rw [entriesForm_iff, running]
  refine ⟨fun d => .running (entryForm_plain (h.entries d).1 (h.entries d).2),
    fun l => ⟨?_, fun _ => h.takes l⟩⟩
  rw [h.takes l]
  exact fun x mem => absurd mem List.not_mem_nil

/-- From `s` to `t` the entries stay `Plain`, whatever the phase. -/
def KeepsPlain (s t : State) : Prop := Plain s → Plain t

theorem KeepsPlain.same {s t : State} (entries : t.entries = s.entries) (takes : t.takes = s.takes) :
    KeepsPlain s t := fun ⟨plain, empty⟩ => ⟨entries ▸ plain, takes ▸ empty⟩

theorem KeepsPlain.foldl {α : Type} (f : State → α → State) (h : ∀ s a, KeepsPlain s (f s a))
    (l : List α) (s : State) : KeepsPlain s (l.foldl f s) :=
  foldl_relates KeepsPlain (fun _ => id) (fun _ _ _ h k => k ∘ h) f h l s

theorem putScene_plain (x : Scene) (outcome : LoadOutcome) {s : State}
    (empty : ∀ l, (s.takes.look l).allChanges = []) : Plain (putScene x outcome s) :=
  ⟨fun d => by simp only [putScene, Table.look_gen, loadedEntry, and_self], empty⟩

theorem openAllFrames_plain (s : State) : KeepsPlain s (openAllFrames s) :=
  .foldl _ (fun _ _ => .same (by simp only [latchTags, modLane_entries, modWriter_entries])
    (by simp only [latchTags, modLane_takes, modWriter_takes])) _ s

theorem alignAll_plain {s : State} (h : Plain s) : Plain (alignAll s) := by
  unfold alignAll
  exact ⟨fun d => by rw [Table.look_gen]; exact h.entries d, h.takes⟩

theorem setFlag_plain (f : FaultFlag) (s : State) : KeepsPlain s (setFlag f s) := by
  obtain ⟨v, p, h⟩ := setFlag_frame f s
  rw [h]
  exact .same rfl rfl

/-- R163, R169: at the end of start-up the engine runs, with the entries and waiting changes it has. -/
theorem finishStartup_form {s : State} (h : Plain s) : EntriesForm (finishStartup s) := by
  unfold finishStartup
  refine Plain.entriesForm (KeepsPlain.foldl (fun t g => handFault g t) (fun _ _ => .same rfl rfl) _ _ ?_) ?_
  · exact ⟨h.entries, h.takes⟩
  · exact foldl_relates (fun s t => t.phase = s.phase) (fun _ => rfl) (fun _ _ _ h k => k.trans h)
      (fun t g => handFault g t) (fun _ _ => rfl) _ _

/-- R92, R93: until the load no change waits, and the scene loads every entry STEADY and with no nudge. -/
theorem sceneLoad_keeps (s : State) : KeepsEntries s (sceneLoad s) := by
  unfold sceneLoad
  split
  · rename_i begins
    refine ⟨fun form => finishStartup_form ?_⟩
    obtain ⟨_, _, stopped⟩ := form
    obtain ⟨r, w, m, i, e, v, p, closed⟩ := foldl_relates WorksFrame WorksFrame.refl WorksFrame.trans
      (fun s l => closeFrame l s) (fun s l => closeFrame_works l s) (List.finRange 8) s
    have empty (l : LaneId) : ((closeAllFrames s).takes.look l).allChanges = [] := by
      rw [closeAllFrames, closed]
      exact (stopped (by rw [begins]; decide)).2 l
    have loaded := alignAll_plain (openAllFrames_plain _
      (putScene_plain (chosenScene s.store).1 (chosenScene s.store).2 empty))
    exact ite_relates (fun _ t => Plain t) _ s _ _ (setFlag_plain _ _ loaded) loaded
  · exact .refl s

/-! ## Commands on a control port -/

/-- The effect of a command, which is taken while the engine runs (R147, R150), keeps the form. -/
def EffectKeeps (effect : Effect) : Prop := ∀ s, s.phase = .running → KeepsEntries s (effect s).1

/-- A command that changes nothing but its own port (R176). -/
theorem EffectKeeps.readOnly {effect : Effect} (h : ∀ s, (effect s).1 = s) : EffectKeeps effect :=
  fun s _ => (h s).symm ▸ .refl s

/-- The end of a write transaction keeps what the judgement keeps, which is made while the engine runs. -/
theorem writeEnds_keeps (c : CpId) (code tag : Byte) (n : Nat) {judge : State → State}
    (h : ∀ s, s.phase = .running → KeepsEntries s (judge s)) (s : State) :
    KeepsEntries s (writeEnds c code tag n judge s) := by
  unfold writeEnds
  split_ifs with powered begins
  · exact .same rfl rfl rfl
  · have running : s.phase = .running := by
      simpa [awake, begins] using powered
    dsimp only
    split
    · exact .same rfl rfl rfl
    · refine .after (h _ ?_) rfl rfl rfl
      exact running
  · exact .refl s

theorem command_keeps (c : CpId) (code tag : Byte) {effect : Effect} (h : EffectKeeps effect)
    (s : State) : KeepsEntries s (command c code tag effect s) := by
  refine writeEnds_keeps c code tag 40 (fun u running => ?_) s
  have ran : KeepsEntries u
      (effect (modPort c (fun p => { p with slot := .executing code tag }) (refresh c u))).1 := by
    refine .after (h _ ?_) rfl rfl rfl
    exact running
  unfold runCommand
  dsimp only
  split
  · exact ran.before rfl rfl rfl
  · exact ran

theorem badBlock_keeps (c : CpId) (bytes : List Byte) (s : State) :
    KeepsEntries s (badBlock c bytes s) :=
  writeEnds_keeps _ _ _ _ (fun u _ => by
    unfold rejectBlock
    split
    · exact .after (setFlag_keeps _ _) rfl rfl rfl
    · exact .refl u) s

/-- A lane command keeps what its effect on the lane keeps (R20). -/
theorem laneCommand_keeps (c : CpId) (lane : Byte) (fieldsOk : Bool) (allowed : LaneState → Bool)
    {effect : LaneId → State → State} (h : ∀ l s, KeepsEntries s (effect l s)) :
    EffectKeeps (laneCommand c lane fieldsOk allowed effect) := by
  intro s _
  unfold laneCommand
  split
  · exact .refl s
  · split_ifs
    iterate 3 exact .refl s
    exact h _ s

theorem laneEnable_keeps (l : LaneId) (s : State) : KeepsEntries s (laneEnable l s) :=
  (modLane_keeps s l _).trans (laneNotice_keeps l _)

theorem laneDisable_keeps (l : LaneId) (s : State) : KeepsEntries s (laneDisable l s) := by
  have off (u : State) : KeepsEntries u (laneNotice l (modLane l (fun n => { n with
      state := .off, coastCount := 0, relockSeen := false, resumeArmed := false, parkCause := none }) u)) :=
    (modLane_keeps u l _).trans (laneNotice_keeps l _)
  unfold laneDisable
  dsimp only
  split
  · exact .refl s
  · exact (departRun_keeps l s).trans (off _)
  · exact (leaveParked_keeps l s).trans (off _)
  · exact off s

theorem lanePark_keeps (l : LaneId) (s : State) : KeepsEntries s (lanePark l s) :=
  KeepsEntries.trans (ite_relates _ _ _ _ _ (departRun_keeps l s) (.refl s)) (enterParked_keeps l _ _)

theorem laneResume_keeps (l : LaneId) (s : State) : KeepsEntries s (laneResume l s) :=
  ((leaveParked_keeps l s).trans (modLane_keeps _ l _)).trans (laneNotice_keeps l _)

theorem setParkMode_keeps (mode : Byte) (l : LaneId) (s : State) :
    KeepsEntries s (setParkMode mode l s) := by
  unfold setParkMode
  split
  · exact modLane_keeps s l _
  · exact .refl s

/-! ### Claims (R98 to R103, R109) -/

theorem effectClaim_keeps (c : CpId) (first : BitVec 16) (count : Byte) :
    EffectKeeps (effectClaim c first count) := by
  have taken (items : List ItemId) (s : State) : KeepsEntries s (takeItems c items s) := by
    unfold takeItems
    exact .foldl (fun s i => setHolder i (some c) s) (fun _ _ => .same rfl rfl rfl) items s
  intro s _
  unfold effectClaim
  dsimp only
  split
  · exact .refl s
  · split
    · exact .refl s
    · exact taken _ s

theorem effectRelease_keeps (c : CpId) (first : BitVec 16) (count : Byte) :
    EffectKeeps (effectRelease c first count) := by
  intro s _
  unfold effectRelease
  dsimp only
  split
  · exact .refl s
  · exact freeItems_keeps c _ s

theorem effectSeize_keeps (c : CpId) (first : BitVec 16) (count : Byte) :
    EffectKeeps (effectSeize c first count) := by
  intro s _
  unfold effectSeize
  dsimp only
  split_ifs
  · exact .refl s
  · exact .refl s
  · exact .foldl _ (fun s i => seizeItem_keeps c i s) _ s

theorem effectSetWatch_keeps (c : CpId) (late : BitVec 16) (lost : Byte) :
    EffectKeeps (effectSetWatch c late lost) := by
  have judged (s : State) (k : CpId) : KeepsEntries s (judgeLiveness k s) :=
    (portLate_keeps k s).trans (portLost_keeps k _)
  intro s _
  unfold effectSetWatch
  split_ifs
  · exact .refl s
  · exact .refl s
  · exact .after (.foldl _ judged _ _) rfl rfl rfl

/-! ### Take queues (R116 to R130) -/

/-- R116: the engine runs and the change carries a length of the table. -/
theorem stageChange_keeps (c : CpId) (l : LaneId) {x : Change} {s : State} (running : s.phase = .running)
    (code : FadeCode x) : KeepsEntries s (stageChange c l x s) := by
  have staged : KeepsEntries s (modTake l (fun t =>
      { t with staging := t.staging.put c (putChange x (t.staging.look c)) }) s) := by
    refine .ofTakes (fun k fits => ?_) rfl rfl
    rw [modTake_look]
    split
    · rename_i own
      subst own
      exact ⟨fun y mem => (mem_allChanges_staged mem).elim (fun new => new ▸ code) (fits.fades y),
        fun stopped => absurd running stopped⟩
    · exact fits
  exact (staged.trans (countUp_keeps _ _)).trans (endChanges_keeps _ _)

theorem effectStage_keeps (c : CpId) (dest source : BitVec 16) (fade tagRef : Byte) (delay : BitVec 16) :
    EffectKeeps (effectStage c dest source fade tagRef delay) := by
  intro s running
  unfold effectStage
  split
  · exact .refl s
  · rename_i x fields
    dsimp only
    split_ifs
    iterate 3 exact .refl s
    exact stageChange_keeps c _ running (changeOf_fade fields)

theorem effectUnstage_keeps (c : CpId) (dest : BitVec 16) : EffectKeeps (effectUnstage c dest) := by
  intro s _
  unfold effectUnstage
  split
  · exact .refl s
  · dsimp only
    split_ifs
    · exact .refl s
    · exact (modTake_keeps (allChanges_putStaging _ c (List.filter_subset_self _))).trans
        (endChanges_keeps _ _)

theorem effectClose_keeps (c : CpId) (lane delay : Byte) : EffectKeeps (effectClose c lane delay) := by
  intro s _
  unfold effectClose
  split
  · exact .refl s
  · dsimp only
    split_ifs
    iterate 3 exact .refl s
    exact modTake_keeps (allChanges_closed c _ _)

theorem effectCancel_keeps (c : CpId) (lane position closure : Byte) :
    EffectKeeps (effectCancel c lane position closure) := by
  intro s _
  unfold effectCancel
  split
  · exact .refl s
  · rename_i l _
    split_ifs
    · exact .refl s
    · split
      · exact .refl s
      · rename_i b _
        have ended : KeepsEntries s (endChanges b.changes
            (modTake l (TakeUnit.cancelled (takeDue s l) position.toNat) s)) :=
          (modTake_keeps (allChanges_cancelled _ _ _)).trans (endChanges_keeps _ _)
        split_ifs
        · exact .refl s
        · exact .refl s
        · exact ended
        · exact ended.before rfl rfl rfl

theorem effectHold_keeps (on : Bool) (c : CpId) (lane : Byte) : EffectKeeps (effectHold on c lane) := by
  intro s _
  unfold effectHold
  split
  · exact .refl s
  · split
    · exact .refl s
    · split_ifs
      · exact .refl s
      · exact modTake_marks_keeps (f := fun t => { t with holdCommand := on }) fun _ => rfl

/-! ### Entries (R75, R91) -/

theorem effectNudge_keeps (c : CpId) (dest : BitVec 16) (amount : Byte) :
    EffectKeeps (effectNudge c dest amount) := by
  intro s running
  unfold effectNudge
  split
  · exact .refl s
  · split_ifs with bad other pending
    · exact .refl s
    · exact .refl s
    · exact .refl s
    · have inRange := (Settings.nudgeOk_iff amount.toInt).mp (by simpa using bad)
      dsimp only [answer]
      refine modEntry_keeps fun e h => ?_
      rw [running]
      refine .running ⟨h.form.1, fun a nudge => ?_⟩
      cases nudge
      exact inRange

theorem effectCheckTest_keeps (c : CpId) (dest : BitVec 16) : EffectKeeps (effectCheckTest c dest) := by
  intro s _
  unfold effectCheckTest
  split
  · exact .refl s
  · split_ifs
    · exact .refl s
    · dsimp only [answer]
      exact modEntry_keeps fun e h => ⟨h.form, h.steady⟩

/-! ### Flags and restarts (R159, R171, R172) -/

theorem effectClearFaults_keeps (selection : BitVec 64) : EffectKeeps (effectClearFaults selection) := by
  intro s _
  unfold effectClearFaults
  split
  · exact .refl s
  · exact .ofClears (clearFlags_frame _ s)

theorem restartChecks_keeps (c : CpId) {effect : Effect} (h : EffectKeeps effect) :
    EffectKeeps (restartChecks c effect) := by
  intro s running
  unfold restartChecks
  split_ifs
  · exact .refl s
  · exact .refl s
  · exact h s running

theorem restartFull_keeps (straps : BitVec 2) (s : State) : KeepsEntries s (restartFull straps s) :=
  .before (blockReset_keeps s s.pending s.now s.choices .starting s.resetLow (seniorOf straps) s.store)
    rfl rfl rfl

theorem restartRetain_keeps (s : State) : KeepsEntries s (restartRetain s) := by
  unfold restartRetain
  exact .after (.ofClears (setFlags_frame _ _)) rfl rfl rfl

/-! ### Commands that only answer (R22, R67, R80, R103, R130, R137) -/

section
variable (s : State)

theorem effectReadClaims_state (first : BitVec 16) (count : Byte) :
    (effectReadClaims first count s).1 = s := by
  unfold effectReadClaims
  split <;> rfl

theorem effectReadLane_state (lane part track : Byte) :
    (effectReadLane lane part track s).1 = s := by
  unfold effectReadLane
  repeat' split
  all_goals rfl

theorem effectReadQueue_state (c : CpId) (lane : Byte) :
    (effectReadQueue c lane s).1 = s := by
  unfold effectReadQueue
  split <;> rfl

theorem effectReadEntry_state (dest : BitVec 16) :
    (effectReadEntry dest s).1 = s := by
  unfold effectReadEntry
  split <;> rfl

theorem effectReadPort_state (port : Byte) :
    (effectReadPort port s).1 = s := by
  unfold effectReadPort
  split <;> rfl

theorem effectReadTag_state (index : Byte) :
    (effectReadTag index s).1 = s := by
  unfold effectReadTag
  split <;> rfl

end

/-! ### Commands beside the patch table and the take queues

Each branch of such an effect leaves entries, Take Units and phase by definition. -/

theorem effectSetPortRef_keeps (c : CpId) (port lane : Byte) :
    EffectKeeps (effectSetPortRef c port lane) := by
  intro s _
  unfold effectSetPortRef
  repeat' split
  all_goals exact .same rfl rfl rfl

theorem effectSetTone_keeps (c : CpId) (level : Byte) : EffectKeeps (effectSetTone c level) := by
  intro s _
  unfold effectSetTone
  split_ifs <;> exact .same rfl rfl rfl

theorem effectWriteTag_keeps (c : CpId) (index kind length : Byte) (label : Table Byte 16)
    (user : Table Byte 8) : EffectKeeps (effectWriteTag c index kind length label user) := by
  intro s _
  unfold effectWriteTag
  dsimp only
  repeat' split
  all_goals exact .same rfl rfl rfl

theorem effectFreeTag_keeps (c : CpId) (index : Byte) : EffectKeeps (effectFreeTag c index) := by
  intro s _
  unfold effectFreeTag
  dsimp only
  repeat' split
  all_goals exact .same rfl rfl rfl

theorem effectClearNotices_keeps (c : CpId) (notices : Byte) :
    EffectKeeps (effectClearNotices c notices) := by
  intro s _
  unfold effectClearNotices
  split <;> exact .same rfl rfl rfl

theorem effectSetNoticeMask_keeps (c : CpId) (noticeMask faultMask : Byte) :
    EffectKeeps (effectSetNoticeMask c noticeMask faultMask) := by
  intro s _
  unfold effectSetNoticeMask
  split <;> exact .same rfl rfl rfl

theorem effectSetLineMask_keeps (c : CpId) (mask : Byte) : EffectKeeps (effectSetLineMask c mask) := by
  intro s _
  unfold effectSetLineMask
  split_ifs <;> exact .same rfl rfl rfl

theorem effectSaveScene_keeps (c : CpId) : EffectKeeps (effectSaveScene c) := by
  intro s _
  unfold effectSaveScene
  split_ifs <;> exact .same rfl rfl rfl

theorem effectSetGuard_keeps (c : CpId) (value : Byte) : EffectKeeps (effectSetGuard c value) := by
  intro s _
  unfold effectSetGuard
  split_ifs <;> exact .same rfl rfl rfl

/-! ## The step -/

/-- Every command answers a next state in which the form is kept. -/
def Keeps (o : Host.Outcome State Fault Refusal) (s : State) : Prop := ∃ t, o = .next t ∧ KeepsEntries s t

theorem Keeps.next {s t : State} (h : KeepsEntries s t) : Keeps (.next t) s := ⟨t, rfl, h⟩

/-- A command that a control port has been given keeps what its effect keeps. -/
theorem Keeps.of_command {effect : Effect} (h : EffectKeeps effect) (c : CpId) (code tag : Byte)
    (s : State) : Keeps (.next (command c code tag effect s)) s := .next (command_keeps c code tag h s)

theorem exec_keeps (i : Instr) (s : State) : Keeps (exec i s) s :=
  match i with
  | .powerUp straps => .next (powerUp_keeps straps s)
  | .resetNLow => .next (resetNLow_keeps s)
  | .resetNRelease straps => .next (resetNRelease_keeps straps s)
  | .sceneLoad => .next (sceneLoad_keeps s)
  | .inputFrameStart l => .next (inputFrameStart_keeps l s)
  | .lateFrameStart l => .next (lateFrameStart_keeps l s)
  | .candidateLapse l => .next (ite_relates _ _ _ _ _ (modLane_keeps s l _) (.refl s))
  | .frameStart l => .next (ite_relates _ _ _ _ _ (frameStart_keeps l s) (.refl s))
  | .coastExpiry l =>
    .next (ite_relates _ _ _ _ _ (enterParked_keeps l .coastExpiry s) (.refl s))
  | .switchPoint l => .next (switchPoint_keeps l s)
  | .take l => .next (take_keeps l s)
  | .soundCell l words => .next (soundCell_keeps l words s)
  | .cellLine l line => .next (cellLine_keeps l line s)
  | .wordClockFrameStart p xs rf => .next (wordClockFrameStart_keeps p xs rf s)
  | .fadeEnd _ => .next (modEntry_keeps fun _ h => h.fadeEnded)
  | .portClockLost p => .next (portClockLost_keeps p s)
  | .internalTimerPeriod p rf => .next (internalTimerPeriod_keeps p rf s)
  | .portRegain p => .next (portRegain_keeps p s)
  | .scrubVisit => .next (scrubVisit_keeps s)
  | .portLate c => .next (portLate_keeps c s)
  | .portLost c => .next (portLost_keeps c s)
  | .saveComplete readBack => .next (saveComplete_keeps readBack s)
  | .saveTimeout => .next (saveTimeout_keeps s)
  | .summaryPoll _ _ => .next (ite_relates _ _ _ _ _ (.same rfl rfl rfl) (.refl s))
  | .readResponse _ _ => .next (ite_relates _ _ _ _ _ (.same rfl rfl rfl) (.refl s))
  | .badBlock c bytes => .next (badBlock_keeps c bytes s)
  | .overrun c _ => .next (writeEnds_keeps c _ _ _ (fun u _ => .refl u) s)
  | .starting c _ => .next (writeEnds_keeps c _ _ _ (fun u _ => .refl u) s)
  | .undefinedCommand c code tag => .of_command (.readOnly fun _ => rfl) c code tag s
  | .keepalive c tag => .of_command (.readOnly fun _ => rfl) c _ tag s
  | .readStatus c tag => .of_command (.readOnly fun _ => rfl) c _ tag s
  | .clearNotices c tag notices => .of_command (effectClearNotices_keeps c notices) c _ tag s
  | .setNoticeMask c tag n f => .of_command (effectSetNoticeMask_keeps c n f) c _ tag s
  | .claim c tag first count => .of_command (effectClaim_keeps c first count) c _ tag s
  | .release c tag first count => .of_command (effectRelease_keeps c first count) c _ tag s
  | .seize c tag first count => .of_command (effectSeize_keeps c first count) c _ tag s
  | .readClaims c tag first count => .of_command (.readOnly (effectReadClaims_state · first count)) c _ tag s
  | .setWatch c tag late lost => .of_command (effectSetWatch_keeps c late lost) c _ tag s
  | .laneEnable c tag lane => .of_command (laneCommand_keeps c lane _ _ laneEnable_keeps) c _ tag s
  | .laneDisable c tag lane => .of_command (laneCommand_keeps c lane _ _ laneDisable_keeps) c _ tag s
  | .lanePark c tag lane => .of_command (laneCommand_keeps c lane _ _ lanePark_keeps) c _ tag s
  | .laneResume c tag lane => .of_command (laneCommand_keeps c lane _ _ laneResume_keeps) c _ tag s
  | .setEmit c tag lane _ =>
    .of_command (laneCommand_keeps c lane _ _ fun l s => modLane_keeps s l _) c _ tag s
  | .setStrip c tag lane _ =>
    .of_command (laneCommand_keeps c lane _ _ fun l s => modLane_keeps s l _) c _ tag s
  | .setParkMode c tag lane mode =>
    .of_command (laneCommand_keeps c lane _ _ (setParkMode_keeps mode)) c _ tag s
  | .setCoastLimit c tag lane _ =>
    .of_command (laneCommand_keeps c lane _ _ fun l s => modLane_keeps s l _) c _ tag s
  | .readLane c tag lane part track => .of_command (.readOnly (effectReadLane_state · lane part track)) c _ tag s
  | .stage c tag dest source fade tagRef delay =>
    .of_command (effectStage_keeps c dest source fade tagRef delay) c _ tag s
  | .unstage c tag dest => .of_command (effectUnstage_keeps c dest) c _ tag s
  | .close c tag lane delay => .of_command (effectClose_keeps c lane delay) c _ tag s
  | .cancel c tag lane position closure =>
    .of_command (effectCancel_keeps c lane position closure) c _ tag s
  | .hold c tag lane => .of_command (effectHold_keeps true c lane) c _ tag s
  | .run c tag lane => .of_command (effectHold_keeps false c lane) c _ tag s
  | .readQueue c tag lane => .of_command (.readOnly (effectReadQueue_state · c lane)) c _ tag s
  | .readEntry c tag dest => .of_command (.readOnly (effectReadEntry_state · dest)) c _ tag s
  | .nudge c tag dest amount => .of_command (effectNudge_keeps c dest amount) c _ tag s
  | .checkTest c tag dest => .of_command (effectCheckTest_keeps c dest) c _ tag s
  | .readPort c tag port => .of_command (.readOnly (effectReadPort_state · port)) c _ tag s
  | .setPortRef c tag port lane => .of_command (effectSetPortRef_keeps c port lane) c _ tag s
  | .setTone c tag level => .of_command (effectSetTone_keeps c level) c _ tag s
  | .writeTag c tag index kind length label user =>
    .of_command (effectWriteTag_keeps c index kind length label user) c _ tag s
  | .freeTag c tag index => .of_command (effectFreeTag_keeps c index) c _ tag s
  | .readTag c tag index => .of_command (.readOnly (effectReadTag_state · index)) c _ tag s
  | .readFaults c tag => .of_command (.readOnly fun _ => rfl) c _ tag s
  | .clearFaults c tag selection => .of_command (effectClearFaults_keeps selection) c _ tag s
  | .setLineMask c tag mask => .of_command (effectSetLineMask_keeps c mask) c _ tag s
  | .saveScene c tag => .of_command (effectSaveScene_keeps c) c _ tag s
  | .setGuard c tag value => .of_command (effectSetGuard_keeps c value) c _ tag s
  | .restartFull c tag straps =>
    .of_command (restartChecks_keeps c fun s _ => restartFull_keeps straps s) c _ tag s
  | .restartRetain c tag mode => .of_command (by
      split
      · exact restartChecks_keeps c fun s _ => restartRetain_keeps s
      · exact .readOnly fun _ => rfl) c _ tag s
  | .entryUpset d u => .next (entryUpset_keeps d u s)
  | .powerLoss => .next (blockReset_keeps s _ _ _ _ _ _ _)
  | .chipSelectFall _ => .next (ite_relates _ _ _ _ _ (.same rfl rfl rfl) (.refl s))

/-- The clock touches no entry and no waiting change (log 1, log 3). -/
theorem idle_keeps (s : State) : KeepsEntries s (idle s) := by
  unfold idle
  split <;> exact .same rfl rfl rfl

/-- Settles O8: a step is the clock or one command, and `exec_keeps` holds of each command. -/
theorem everyStepKeepsEntriesForm : Obligations.EveryStepKeepsEntriesForm := by
  intro s t form stepped
  unfold step at stepped
  split at stepped
  · cases stepped
    exact (idle_keeps s).form form
  · rename_i c rest _
    obtain ⟨u, ran, keeps⟩ := exec_keeps c { s with pending := rest }
    cases ran.symm.trans stepped
    exact keeps.form form

end Sys2Proof.Machine.EntriesKept
end

section
/-! PROOFS. The application of a change (R81 to R86): the kind in force, the tag reference that is stored and
counted, the entry field by field, and the tag counts. -/

namespace Sys2Proof.Machine.ChangesApplied

open TagLatch

/-! ## The kind in force (R81) -/

/-- R53: a source hands on a block where it is a valid lane source whose track keeps one. -/
theorem passBlock_eq_some {s : State} {src : Src} {b : TagBlock} : passBlock s src = some b ↔
    ∃ l k, src = .ring (laneRing l k) ∧ srcValid s src = true ∧
      ((s.readers.look l).tracks.look k).kept = some b := by
  constructor
  · intro kept
    have valid : srcValid s src = true := by
      by_contra invalid
      rw [passBlock_invalid (Bool.not_eq_true _ ▸ invalid)] at kept
      cases kept
    by_contra none
    rw [passBlock_unkept fun l k lane => Option.eq_none_iff_forall_ne_some.mpr fun b' kept' => ?_] at kept
    · cases kept
    · subst lane
      rw [passBlock_laneRing valid, kept'] at kept
      exact none ⟨l, k, rfl, valid, kept'.trans kept⟩
  · rintro ⟨l, k, rfl, valid, kept⟩
    rw [passBlock_laneRing valid, kept]

theorem kindInForce_coded (s : State) (src : Src) (ref : TagRef) :
    kindInForce s src ref = kindCoded ↔ CodedInForce s src ref := by
  cases ref with
  | none => simp [kindInForce, kindCoded, CodedInForce]
  | record n =>
    cases content : (s.tags.look n).content <;>
      simp [kindInForce, kindCoded, CodedInForce, content]
  | pass =>
    have block : CodedInForce s src .pass ↔ ∃ b, passBlock s src = some b ∧ b.look 0 = kindCoded := by
      simp only [passBlock_eq_some, CodedInForce, kindCoded]
      constructor
      · rintro (⟨_, _, other, _⟩ | ⟨l, k, b, _, lane, valid, kept, coded⟩)
        · cases other
        · exact ⟨b, ⟨l, k, lane, valid, kept⟩, coded⟩
      · rintro ⟨b, ⟨l, k, lane, valid, kept⟩, coded⟩
        exact .inr ⟨l, k, b, trivial, lane, valid, kept, coded⟩
    rw [block]
    cases kept : passBlock s src <;> simp [kindInForce, kindCoded, kept]

/-! ## The tag reference (R84) -/

section
variable {s : State} {e : Entry} {x : Change}

theorem newTagRef_carried {r : TagRef} (h : x.tag = some r) : newTagRef s e x = (tagRefCode r, r) := by
  simp only [newTagRef, h]

theorem tagRefOfCode_record {b : Byte} {n : TagId} (h : b.toNat = n.val) :
    tagRefOfCode b = some (.record n) := by
  have apart (v : Byte) (above : 64 ≤ v.toNat) : b ≠ v := by
    rintro rfl
    omega
  have field : tagField b = some n := Settings.asFin_eq_some h
  rw [tagRefOfCode, if_neg (apart 0x40 (by decide)), if_neg (apart 0x41 (by decide)), field, Option.map_some]

theorem tagRefOfCode_unnamed {b : Byte} (h : 0x42 ≤ b.toNat) : tagRefOfCode b = none := by
  have apart (v : Byte) (below : v.toNat < 0x42) : b ≠ v := by
    rintro rfl
    omega
  have field : tagField b = none := Settings.asFin_eq_none (by omega)
  rw [tagRefOfCode, if_neg (apart 0x40 (by decide)), if_neg (apart 0x41 (by decide)), field, Option.map_none]

variable (h : x.tag = none)
include h

/-- A stored code that names a written record is counted for it. -/
theorem newTagRef_written {n : TagId} (code : e.tag.toNat = n.val)
    (written : (s.tags.look n).content.isSome = true) : newTagRef s e x = (e.tag, .record n) := by
  simp only [newTagRef, h, tagRefOfCode_record code, written, if_true]

/-- A stored code that names a free record becomes NONE (log 11). -/
theorem newTagRef_free {n : TagId} (code : e.tag.toNat = n.val) (free : (s.tags.look n).content = none) :
    newTagRef s e x = (0x40, .none) := by
  simp [newTagRef, h, tagRefOfCode_record code, free, tagCodeNone]

theorem newTagRef_none (code : e.tag = 0x40) : newTagRef s e x = (0x40, .none) := by
  simp [newTagRef, h, code, tagRefOfCode]

theorem newTagRef_pass (code : e.tag = 0x41) : newTagRef s e x = (0x41, .pass) := by
  simp [newTagRef, h, code, tagRefOfCode]

/-- A stored code that names no reference is counted as NONE (log 11). -/
theorem newTagRef_unnamed (code : 0x42 ≤ e.tag.toNat) : newTagRef s e x = (e.tag, .none) := by
  simp only [newTagRef, h, tagRefOfCode_unnamed code]

end

/-! ## The entry (R82, R83, R85, R86) -/

section
variable (s : State) (x : Change) (e : Entry)

theorem appliedEntry_source : (appliedEntry s x e).source = BitVec.ofNat 16 x.source.val := by
  unfold appliedEntry
  dsimp only
  split <;> rfl

theorem appliedEntry_ref : (appliedEntry s x e).tag = (newTagRef s e x).1 ∧
    (appliedEntry s x e).counted = (newTagRef s e x).2 := by
  unfold appliedEntry
  dsimp only
  split <;> exact ⟨rfl, rfl⟩

theorem appliedEntry_delay : (appliedEntry s x e).delay = match x.delay with
    | some n => BitVec.ofNat 16 n
    | none => e.delay := by
  unfold appliedEntry
  dsimp only
  split <;> rfl

theorem appliedEntry_fade : (appliedEntry s x e).fade = newFade s e x := by
  unfold appliedEntry
  dsimp only
  split <;> rfl

/-- R86: the application ends with the health and the check code; a pending nudge is not touched. -/
theorem appliedEntry_end : (appliedEntry s x e).nudge = e.nudge ∧ (appliedEntry s x e).health = .good ∧
    (appliedEntry s x e).code = Config.checkCode (appliedEntry s x e).source (appliedEntry s x e).tag
      (appliedEntry s x e).delay := by
  unfold appliedEntry
  dsimp only
  split <;> exact ⟨rfl, rfl, rfl⟩

theorem appliedEntry_src : (appliedEntry s x e).src = Src.ofNumber x.source.val := by
  have bound : x.source.val < 2 ^ 16 := x.source.isLt.trans (by decide)
  rw [Entry.src, appliedEntry_source, BitVec.toNat_ofNat, Nat.mod_eq_of_lt bound]

theorem changesSource_iff : changesSource e x = true ↔ (appliedEntry s x e).src ≠ e.src := by
  rw [changesSource, bne_iff_ne, appliedEntry_src, ne_comm]

/-- R85: the entry is aligned where the source changes or a delay target is carried. -/
theorem appliedEntry_readIndex : (appliedEntry s x e).readIndex =
    if changesSource e x || x.delay.isSome then
      alignedIndex s (appliedEntry s x e).src (appliedEntry s x e).delayUsed
    else e.readIndex := by
  unfold appliedEntry
  dsimp only
  split <;> rfl

theorem effectiveFade_coded {s : State} {x : Change} {e : Entry}
    (coded : CodedInForce s e.src e.tagUsed ∨
      CodedInForce s (appliedEntry s x e).src (appliedEntry s x e).counted) : effectiveFade s e x = 0 := by
  rw [appliedEntry_src, (appliedEntry_ref s x e).2, ← kindInForce_coded, ← kindInForce_coded] at coded
  exact if_pos coded

theorem effectiveFade_uncoded {s : State} {x : Change} {e : Entry}
    (uncoded : ¬ (CodedInForce s e.src e.tagUsed ∨
      CodedInForce s (appliedEntry s x e).src (appliedEntry s x e).counted)) :
    effectiveFade s e x = x.fade := by
  rw [appliedEntry_src, (appliedEntry_ref s x e).2, ← kindInForce_coded, ← kindInForce_coded] at uncoded
  exact if_neg uncoded

theorem newFade_none {s : State} {x : Change} {e : Entry}
    (h : changesSource e x = false ∨ effectiveFade s e x = 0) : newFade s e x = none := by
  unfold newFade
  rw [if_neg]
  rintro ⟨changes, fades⟩
  exact h.elim (fun same => by rw [same] at changes; cases changes) fades

theorem newFade_some {s : State} {x : Change} {e : Entry} (changes : changesSource e x = true)
    (fades : effectiveFade s e x ≠ 0) :
    newFade s e x = some ⟨e.src, e.readIndex, effectiveFade s e x, 0⟩ := if_pos ⟨changes, fades⟩

/-- R81 to R86, field by field. -/
theorem appliedEntry_applied : ChangeApplied s x e (appliedEntry s x e) := by
  have changes := changesSource_iff s x e
  have same (h : (appliedEntry s x e).src = e.src) : changesSource e x = false := by
    rw [← Bool.not_eq_true, changes]
    exact not_not.mpr h
  obtain ⟨tag, counted⟩ := appliedEntry_ref s x e
  have ref {r : Byte × TagRef} (h : newTagRef s e x = r) :
      (appliedEntry s x e).tag = r.1 ∧ (appliedEntry s x e).counted = r.2 := h ▸ ⟨tag, counted⟩
  have delay := appliedEntry_delay s x e
  refine ⟨appliedEntry_source s x e, fun kept => ?_, fun moved cut => ?_, fun moved fades uncoded => ?_,
    fun r carried => ref (newTagRef_carried carried), fun absent => ⟨fun n code => ⟨fun written => ?_,
      fun free => ?_⟩, fun code => ?_, fun code => ?_, fun code => ?_⟩, fun n carried => ?_,
    fun absent => ?_, fun aligns => ?_, fun kept absent => ?_, appliedEntry_end s x e⟩
  · rw [appliedEntry_fade, newFade_none (.inl (same kept))]
  · rw [appliedEntry_fade]
    refine newFade_none (.inr ?_)
    by_cases coded : CodedInForce s e.src e.tagUsed ∨
        CodedInForce s (appliedEntry s x e).src (appliedEntry s x e).counted
    · exact effectiveFade_coded coded
    · rw [effectiveFade_uncoded coded]
      exact cut.resolve_right coded
  · have length := effectiveFade_uncoded uncoded
    rw [appliedEntry_fade, newFade_some (changes.mpr moved) (length ▸ fades), length]
  · exact ref (newTagRef_written absent code written)
  · exact ref (newTagRef_free absent code free)
  · exact ref (newTagRef_none absent code)
  · exact ref (newTagRef_pass absent code)
  · exact ref (newTagRef_unnamed absent code)
  · rw [delay, carried]
  · rw [delay, absent]
  · rw [appliedEntry_readIndex, if_pos]
    rw [Bool.or_eq_true, changes]
    exact aligns
  · rw [appliedEntry_readIndex, if_neg]
    rw [same kept, absent]
    decide

end

/-! ## The tag counts (R84, R140) -/

section
variable (r : TagRef) (s : State) (n : TagId)

theorem countUp_look : ((countUp r s).tags.look n).content = (s.tags.look n).content ∧
    ((countUp r s).tags.look n).count = (s.tags.look n).count + if r = .record n then 1 else 0 := by
  cases r with
  | none => exact ⟨rfl, rfl⟩
  | pass => exact ⟨rfl, rfl⟩
  | record k =>
    rw [countUp, modTag_look]
    by_cases own : k = n <;> simp [own]

theorem countDown_look : ((countDown r s).tags.look n).content = (s.tags.look n).content ∧
    ((countDown r s).tags.look n).count = (s.tags.look n).count - if r = .record n then 1 else 0 := by
  cases r with
  | none => exact ⟨rfl, rfl⟩
  | pass => exact ⟨rfl, rfl⟩
  | record k =>
    rw [countDown, modTag_look]
    by_cases own : k = n <;> simp [own]

theorem moveCount_moves (old new : TagRef) : CountMoves old new s (moveCount old new s) := by
  intro n
  unfold moveCount
  by_cases same : old = new
  · rw [if_pos same, if_pos same]
    exact ⟨rfl, rfl⟩
  · obtain ⟨content, count⟩ := countDown_look old s n
    obtain ⟨content', count'⟩ := countUp_look new (countDown old s) n
    rw [if_neg same, if_neg same, content', count', content, count]
    exact ⟨rfl, rfl⟩

end

/-! ## The state -/

section
variable (x : Change) (s : State)

theorem applyChange_entries : (applyChange x s).entries = (modEntry x.dest (appliedEntry s x) s).entries := by
  obtain ⟨g, h⟩ := moveCount_frame (s.entries.look x.dest).counted
    (newTagRef s (s.entries.look x.dest) x).2 (modEntry x.dest (appliedEntry s x) s)
  rw [applyChange, h]

theorem applyChange_look : (applyChange x s).entries.look x.dest =
    appliedEntry s x (s.entries.look x.dest) := by
  rw [applyChange_entries, modEntry_look_self]

end

/-- Settles O36: the entry is `appliedEntry`, and the counts are moved by `moveCount`. -/
theorem appliedChangeFadesAndAligns : Obligations.AppliedChangeFadesAndAligns := by
  intro x s
  dsimp only
  refine ⟨?_, ?_, ?_, fun d other => ?_⟩
  · obtain ⟨e, g, h⟩ := applyChange_frame x s
    rw [h]
  · rw [applyChange_look]
    exact appliedEntry_applied s x _
  · rw [applyChange_look, (appliedEntry_ref s x _).2]
    exact moveCount_moves (modEntry x.dest (appliedEntry s x) s) _ _
  · rw [applyChange_entries, modEntry_look_ne _ s other.symm]

/-! ## The end of an application, and of a batch (R86, R122) -/

theorem take_due {l : LaneId} {s : State} (h : takeDue s l = true) :
    take l s = applyHead l (modLane l (fun n => { n with takePending := false }) s) := if_pos h

theorem applyHead_notice {l : LaneId} {s : State} {b : Batch} {rest : List Batch}
    (h : (s.takes.look l).queue = b :: rest) : noticeSet (applyHead l s) b.owner .applied = true := by
  rw [applyHead, h]
  dsimp only
  rw [noticeSet, setNotice, modPort_look_self, CtrlPort.notify_getLsbD, decide_eq_true rfl, Bool.or_true]

/-- Settles O37: the two writes are `appliedEntry_end`; APPLIED comes from TAKE alone. -/
theorem applicationEndsWithTwoWrites : Obligations.ApplicationEndsWithTwoWrites := by
  intro x s
  obtain ⟨_, good, code⟩ := appliedEntry_end s x (s.entries.look x.dest)
  obtain ⟨e, g, frame⟩ := applyChange_frame x s
  rw [applyChange_look]
  refine ⟨good, code, by rw [frame], by rw [frame], fun l b rest due queue => ?_⟩
  refine ⟨take l s, rfl, ?_⟩
  rw [take_due due]
  exact applyHead_notice queue

end Sys2Proof.Machine.ChangesApplied
end

section
/-! PROOFS. READ ENTRY (R80, R177) and the scrub's visit of one entry (R87, R88, R90, R152). -/

namespace Sys2Proof.Machine.EntryReads

/-! ## READ ENTRY (R80, R177) -/

theorem effectReadEntry_named {v : BitVec 16} {d : DestId} {s : State} (named : v.toNat = d.val) :
    effectReadEntry v s = answer (entryPayload s d) s := by
  rw [effectReadEntry, Settings.destField_eq_some named]

theorem effectReadEntry_above {v : BitVec 16} {s : State} (above : 256 ≤ v.toNat) :
    effectReadEntry v s = refuse .badArg s := by
  rw [effectReadEntry, Settings.destField_eq_none above]

/-- Settles O39: the payload is read off the entry, by its source, its fade and its nudge. -/
theorem readEntryAnswers : Obligations.ReadEntryAnswers := by
  intro c tag v d s taken
  refine ⟨fun named => ?_, fun above => Settings.next_refused taken .badArg (effectReadEntry_above above)⟩
  refine congrArg Host.Outcome.next ((command_answered taken 0x28 tag (effectReadEntry v)
    (entryPayload s d) (effectReadEntry_named named)).trans (congrArg (replied s c 0x28 tag .ok · s) ?_))
  have source : distanceBytes (distance s (s.entries.look d).src (s.entries.look d).readIndex) =
      match (s.entries.look d).src with
      | .ring r => numBytes (s.writeIndex.look r - (s.entries.look d).readIndex).toNat
      | _ => [0xFF, 0xFF] := by
    cases (s.entries.look d).src <;> rfl
  have fade : fadeBytes s (s.entries.look d).fade =
      match (s.entries.look d).fade with
      | none => List.replicate 10 0
      | some f => [1] ++ numBytes f.prev.number ++ numBytes f.prevIndex.toNat ++
          (match f.prev with
            | .ring r => numBytes (s.writeIndex.look r - f.prevIndex).toNat
            | _ => [0xFF, 0xFF]) ++ [fadeCode f.length] ++ numBytes f.pos := by
    cases (s.entries.look d).fade with
    | none => rfl
    | some f => cases f with | mk prev => cases prev <;> rfl
  rw [entryPayload, source, fade]
  rfl

/-! ## The visit of one entry (R88, R90) -/

section
variable {d : DestId} {s : State}

/-- A GOOD entry that mismatches is marked, flagged and recorded. -/
theorem visitEntry_marks (good : (s.entries.look d).health = .good)
    (mismatch : (s.entries.look d).matches = false) :
    visitEntry d s = { setFlag .entryCheck (modEntry d Entry.suspected s) with
      firstSuspect := some (s.firstSuspect.getD d) } := by
  obtain ⟨v, p, flagged⟩ := setFlag_frame .entryCheck (modEntry d Entry.suspected s)
  rw [visitEntry, if_pos ⟨good, mismatch⟩, flagged]
  rfl

theorem visitEntry_passes
    (h : (s.entries.look d).health = .suspect ∨ (s.entries.look d).matches = true) :
    visitEntry d s = s := by
  refine if_neg ?_
  rintro ⟨good, mismatch⟩
  rcases h with suspect | matching
  · cases suspect.symm.trans good
  · cases matching.symm.trans mismatch

theorem visitEntry_frame (d : DestId) (s : State) : ∃ e v p f, visitEntry d s =
    { s with entries := e, flags := v, ports := p, firstSuspect := f } := by
  unfold visitEntry
  dsimp only
  split
  · obtain ⟨v, p, flagged⟩ := setFlag_frame .entryCheck (modEntry d Entry.suspected s)
    rw [flagged]
    exact ⟨_, v, p, _, rfl⟩
  · exact ⟨s.entries, s.flags, s.ports, s.firstSuspect, rfl⟩

theorem visitEntry_other {k : DestId} (other : k ≠ d) :
    (visitEntry d s).entries.look k = s.entries.look k := by
  unfold visitEntry
  dsimp only
  split
  · obtain ⟨v, p, flagged⟩ := setFlag_frame .entryCheck (modEntry d Entry.suspected s)
    rw [flagged]
    exact modEntry_look_ne _ s other.symm
  · rfl

end

/-! ## The scrub (R87) -/

theorem scrubVisit_due {s : State} (due : scrubDue s = true) : scrubVisit s =
    { visitEntry s.scrubPos s with
      scrubPos := s.scrubPos + 1, scrubAt := s.scrubAt + Config.scrubPeriod } := by
  obtain ⟨e, v, p, f, visited⟩ := visitEntry_frame s.scrubPos s
  rw [scrubVisit, if_pos due, visited]

theorem running_of_scrubDue {s : State} (due : scrubDue s = true) : s.phase = .running := by
  simp only [scrubDue, Bool.and_eq_true, beq_iff_eq] at due
  exact due.1

/-- Settles O41: the visit marks the entry or passes it by, and the position moves on. -/
theorem scrubVisitMarksAMismatch : Obligations.ScrubVisitMarksAMismatch := by
  intro s due
  obtain ⟨tells, _⟩ := scrubVisit_tells s
  have visit := scrubVisit_due due
  refine ⟨scrubVisit s, rfl, ?_, tells, fun d other => ?_, fun good mismatch => ?_, fun passed => ?_⟩
  · obtain ⟨e, v, p, f, visited⟩ := visitEntry_frame s.scrubPos s
    rw [visit, visited]
    rfl
  · rw [visit]
    exact visitEntry_other other
  · rw [visitEntry_marks good mismatch] at visit
    have flags (f : FaultFlag) :
        flagSet (scrubVisit s) f = true ↔ f = .entryCheck ∨ flagSet s f = true := by
      have set := flagSet_setFlag .entryCheck f (modEntry s.scrubPos Entry.suspected s)
      rw [visit]
      refine (iff_of_eq (congrArg (· = true) set)).trans ?_
      rw [Bool.or_eq_true, decide_eq_true_iff, or_comm]
      rfl
    refine ⟨?_, by rw [visit], flags, fun clear c enabled => ?_⟩
    · obtain ⟨v, p, flagged⟩ := setFlag_frame .entryCheck (modEntry s.scrubPos Entry.suspected s)
      rw [visit, flagged]
      exact modEntry_look_self _ _ s
    · exact (tells.2 c).2.mpr
        (.inr ⟨running_of_scrubDue due, .entryCheck, clear, (flags _).mpr (.inl rfl), enabled⟩)
  · rw [visit, visitEntry_passes passed]
    exact ⟨rfl, rfl, rfl, rfl⟩

end Sys2Proof.Machine.EntryReads
end

section
/-! PROOFS. A save of the scene (R95, R165, R166, R167): what SAVE SCENE takes, and how the save ends. -/

namespace Sys2Proof.Machine.SceneSaves

/-! ## SAVE SCENE (R165, R166) -/

section
variable {c : CpId} {s : State}

theorem effectSaveScene_busy (busy : s.saving.isSome = true) :
    effectSaveScene c s = refuse .storeBusy s := if_pos busy

theorem effectSaveScene_guarded (idle : s.saving = none) (guarded : s.saveGuard = true)
    (junior : s.senior ≠ some c) : effectSaveScene c s = refuse .guarded s := by
  rw [effectSaveScene, idle, if_neg (by decide), if_pos ⟨guarded, decide_eq_false junior⟩]

/-- The snapshot is taken and no answer is given yet. -/
theorem effectSaveScene_taken (idle : s.saving = none)
    (free : s.saveGuard = false ∨ s.senior = some c) : effectSaveScene c s =
      ({ s with store := .torn, saving := some ⟨c, takeSnapshot s, s.now⟩ }, none) := by
  rw [effectSaveScene, idle, if_neg (by decide), if_neg]
  rintro ⟨guarded, junior⟩
  rcases free with unguarded | senior
  · cases guarded.symm.trans unguarded
  · exact of_decide_eq_false junior senior

end

/-- The caller's port is no part of a scene. -/
theorem takeSnapshot_served (s : State) (c : CpId) (code tag : Byte) :
    takeSnapshot (served s c code tag) = takeSnapshot s := rfl

/-- SAVE SCENE, taken: the slot stays EXECUTING (R146, R166). -/
theorem saveScene_taken {c : CpId} {tag : Byte} {s : State} (taken : Takes s c) (idle : s.saving = none)
    (free : s.saveGuard = false ∨ s.senior = some c) :
    command c 0x48 tag (effectSaveScene c) s = { served s c 0x48 tag with
      store := .torn, saving := some ⟨c, takeSnapshot s, s.now⟩ } := by
  rw [command_taken taken, effectSaveScene_taken (s := served s c 0x48 tag) idle free, takeSnapshot_served]
  rfl

/-- R95: an entry that is GOOD and matches is saved as it is stored. -/
theorem saved_good {e : Entry} (good : e.health = .good) (matching : e.matches = true) :
    e.saved = ⟨e.source, e.tag, e.delay⟩ := if_pos ⟨good, matching⟩

/-- R95: any other entry is saved as the silence source. -/
theorem saved_other {e : Entry} (h : e.health = .suspect ∨ e.matches = false) :
    e.saved = ⟨257, 0x40, 64⟩ := by
  refine if_neg ?_
  rintro ⟨good, matching⟩
  rcases h with suspect | mismatch
  · cases suspect.symm.trans good
  · cases matching.symm.trans mismatch

/-! ## The end of a save (R167) -/

/-- The caller's port when a save has been answered. -/
def savedPort (code tag : Byte) (r : Result) (p : CtrlPort) : CtrlPort :=
  { p with slot := .answered ⟨code, tag, r, p.overrunMark, []⟩, overrunMark := false }

/-- The state when a save has been answered and the store is free, before any flag. -/
def answeredSave (c : CpId) (code tag : Byte) (r : Result) (store : StoreContent) (s : State) : State :=
  modPort c (savedPort code tag r) { s with saving := none, store := store }

section
variable {v : Save} {code tag : Byte} {s : State}
  (waits : (s.ports.look v.caller).slot = .executing code tag)
include waits

theorem finishSave_ok : finishSave true v s =
    answeredSave v.caller code tag .ok (.image v.snapshot (Config.sceneCheck v.snapshot)) s := by
  simp only [finishSave, if_true, placeSave, waits]
  rfl

theorem finishSave_failed : finishSave false v s =
    setFlag .sceneSaveFail (answeredSave v.caller code tag .saveFailed .torn s) := by
  simp only [finishSave, Bool.false_eq_true, if_false, placeSave, waits]
  rfl

end

/-- R156, R167: a failed save sets SCENE_SAVE_FAIL, which is handed to the ports; the caller is answered. -/
theorem saveFailed_setFlag (c : CpId) (code tag : Byte) (s : State) :
    SaveFailed c code tag s (setFlag .sceneSaveFail (answeredSave c code tag .saveFailed .torn s)) := by
  obtain ⟨⟨_, told⟩, _⟩ := setFlag_tells [] .sceneSaveFail (answeredSave c code tag .saveFailed .torn s)
  have own : (answeredSave c code tag .saveFailed .torn s).ports.look c =
      savedPort code tag .saveFailed (s.ports.look c) := modPort_look_self c _ _
  have other (k : CpId) (h : k ≠ c) :
      (answeredSave c code tag .saveFailed .torn s).ports.look k = s.ports.look k :=
    modPort_look_ne _ _ h.symm
  have notices (k : CpId) : ((answeredSave c code tag .saveFailed .torn s).ports.look k).notices =
        (s.ports.look k).notices ∧
      ((answeredSave c code tag .saveFailed .torn s).ports.look k).faultMask =
        (s.ports.look k).faultMask := by
    by_cases h : k = c
    · subst h
      rw [own]
      exact ⟨rfl, rfl⟩
    · rw [other k h]
      exact ⟨rfl, rfl⟩
  refine ⟨?_, fun k h => other k h ▸ (told k).1, fun k => ?_, fun f => ?_⟩
  · have gains := (told c).1
    rw [own] at gains
    exact gains
  · have handed := (told k).2
    unfold FaultHanded noticeSet at handed ⊢
    rw [(notices k).1, (notices k).2] at handed
    exact handed
  · rw [flagSet_setFlag, Bool.or_eq_true, decide_eq_true_iff, or_comm]
    rfl

/-- What a failed save may change. -/
theorem saveFailed_frame (c : CpId) (code tag : Byte) (s : State) :
    ∃ p v, setFlag .sceneSaveFail (answeredSave c code tag .saveFailed .torn s) =
      { s with ports := p, saving := none, store := .torn, flags := v } := by
  obtain ⟨v, p, h⟩ := setFlag_frame .sceneSaveFail (answeredSave c code tag .saveFailed .torn s)
  exact ⟨p, v, h⟩

section
variable {v : Save} {s : State} (saving : s.saving = some v)
include saving

theorem saveComplete_saving (readBack : Bool) : saveComplete readBack s =
    finishSave (readBack && decide (s.now ≤ v.startedAt + 400 * 768)) v s := by
  rw [saveComplete, saving]
  rfl

theorem saveTimeout_late (late : v.startedAt + 400 * 768 ≤ s.now) :
    saveTimeout s = finishSave false v s := by
  have due : saveTimeoutDue s = true := by
    rw [saveTimeoutDue, saving]
    exact decide_eq_true late
  rw [saveTimeout, saving]
  exact if_pos due

end

/-- R170: an image whose values are in range and whose check fits is the one that a start-up loads. -/
theorem chosenScene_written {x : Scene} (inRange : x.inRange = true) :
    chosenScene (.image x (Config.sceneCheck x)) = (x, .image) := if_pos ⟨rfl, inRange⟩

/-- Settles O60: the snapshot by `saveScene_taken`, the end by `finishSave_ok` and `finishSave_failed`. -/
theorem saveRunsToItsEnd : Obligations.SaveRunsToItsEnd := by
  intro c tag ok s
  refine ⟨fun taken busy => ?_, fun taken idle guarded junior => ?_, fun taken idle free => ?_, ?_⟩
  · exact Settings.next_refused taken .storeBusy (effectSaveScene_busy busy)
  · exact Settings.next_refused taken .guarded (effectSaveScene_guarded idle guarded junior)
  · refine ⟨_, takeSnapshot s, congrArg Host.Outcome.next (saveScene_taken taken idle free), rfl,
      served_port s c 0x48 tag, fun k other => modPort_look_ne _ s other.symm, rfl, rfl, rfl, rfl, rfl, rfl,
      fun n => Table.look_gen _ n, fun p => Table.look_gen _ p, fun l => ?_, fun d => ?_⟩
    · simp only [takeSnapshot, Table.look_gen, Lane.saved, and_self]
    · simp only [takeSnapshot, Table.look_gen]
      exact ⟨saved_good, saved_other⟩
  · rintro v code saving rfl waits
    have completes := saveComplete_saving saving ok
    have failed {i : Instr} (ends : exec i s = .next (finishSave false v s)) : ∃ t, exec i s = .next t ∧
        t = { s with ports := t.ports, saving := none, store := .torn, flags := t.flags } ∧
        SaveFailed v.caller code tag s t := by
      obtain ⟨p, f, frame⟩ := saveFailed_frame v.caller code tag s
      rw [finishSave_failed waits] at ends
      exact ⟨_, ends, by rw [frame], saveFailed_setFlag v.caller code tag s⟩
    refine ⟨fun read inTime => ?_, fun late => ?_, fun late => ?_⟩
    · rw [read, decide_eq_true inTime, Bool.and_self, finishSave_ok waits, ← read] at completes
      exact ⟨answeredSave v.caller code tag .ok (.image v.snapshot (Config.sceneCheck v.snapshot)) s,
        congrArg Host.Outcome.next completes, rfl, chosenScene_written, modPort_look_self _ _ _,
        fun k other => modPort_look_ne _ _ other.symm⟩
    · have unread : (ok && decide (s.now ≤ v.startedAt + 400 * 768)) = false := by
        rw [Bool.and_eq_false_iff, decide_eq_false_iff_not, Nat.not_le]
        exact late
      rw [unread] at completes
      exact failed (congrArg Host.Outcome.next completes)
    · exact failed (congrArg Host.Outcome.next (saveTimeout_late saving late))

end Sys2Proof.Machine.SceneSaves
end

section
/-! PROOFS. Ranges of claim items (R98, R103), and the commands that take claims or only answer about them: CLAIM,
READ CLAIMS, READ QUEUE, KEEPALIVE and the refusals of the commands of the senior port (R97). -/

namespace Sys2Proof.Machine.ClaimRanges

open Settings

/-! ## Ranges of items -/

theorem rangeOk_iff (most : Nat) (first : BitVec 16) (count : Byte) :
    rangeOk most first count = true ↔ ItemRange most first count := by
  simp [rangeOk, and_assoc]

theorem rangeOk_eq_false {most : Nat} {first : BitVec 16} {count : Byte}
    (outside : ¬ ItemRange most first count) : rangeOk most first count = false := by
  rwa [← Bool.not_eq_true, rangeOk_iff]

theorem mem_rangeItems {first : BitVec 16} {count : Byte} {i : ItemId} :
    i ∈ rangeItems first count ↔ InItems first count i := by
  simp only [rangeItems, List.mem_filterMap, List.mem_range, asFin]
  constructor
  · rintro ⟨k, below, item⟩
    split_ifs at item
    cases item
    exact ⟨Nat.le_add_right _ _, Nat.add_lt_add_left below _⟩
  · rintro ⟨low, high⟩
    have place : first.toNat + (i.val - first.toNat) = i.val := Nat.add_sub_cancel' low
    exact ⟨i.val - first.toNat, by omega, by simp only [place, i.isLt, dif_pos, Fin.eta]⟩

/-- The items of a range come in item order (R98). -/
theorem rangeItems_rising (first : BitVec 16) (count : Byte) :
    (rangeItems first count).Pairwise (· < ·) := by
  refine List.pairwise_filterMap.mpr (List.pairwise_lt_range.imp fun {j k} before i named i' named' => ?_)
  unfold asFin at named named'
  split_ifs at named named'
  cases named
  cases named'
  exact Nat.add_lt_add_left before _

theorem rangeItems_eq (first : BitVec 16) (count : Byte) :
    rangeItems first count = (List.finRange 264).filter fun i => decide (InItems first count i) :=
  (rangeItems_rising first count).eq_of_mem_iff (List.pairwise_lt_finRange 264 |>.filter _)
    fun i => by simp [mem_rangeItems]

/-- The items of a range for which a test holds, counted in one byte. -/
theorem length_filter_rangeItems (first : BitVec 16) (count : Byte) (p : ItemId → Bool) :
    BitVec.ofNat 8 ((rangeItems first count).filter p).length = countItems first count p := by
  rw [rangeItems_eq, List.filter_filter, ← List.countP_eq_length_filter, countItems]
  exact congrArg (BitVec.ofNat 8) (List.countP_congr fun i _ => by rw [Bool.and_comm])

/-! ## CLAIM (R98) -/

section
variable {s : State} {c : CpId} {items : List ItemId}

/-- R98: no item of the list is held elsewhere where each is FREE or the caller's. -/
theorem heldElsewhere_none (unheld : ∀ i ∈ items, s.holders.look i = none ∨ s.holders.look i = some c) :
    heldElsewhere s c items = none := by
  refine List.findSome?_eq_none_iff.mpr fun i mem => ?_
  rcases unheld i mem with free | own
  · rw [free]
  · rw [own]
    exact if_pos rfl

/-- R98: of a rising list, the lowest item that another port holds is named with its holder. -/
theorem heldElsewhere_lowest (rising : items.Pairwise (· < ·)) {i : ItemId} {h : CpId} (mem : i ∈ items)
    (held : s.holders.look i = some h) (other : h ≠ c)
    (below : ∀ j ∈ items, j < i → s.holders.look j = none ∨ s.holders.look j = some c) :
    heldElsewhere s c items = some (i, h) := by
  obtain ⟨before, after, rfl⟩ := List.append_of_mem mem
  refine List.findSome?_eq_some_iff.mpr ⟨before, i, after, rfl, ?_, fun j early => ?_⟩
  · rw [held]
    exact if_neg other
  · have lower : j < i := (List.pairwise_append.mp rising).2.2 j early i List.mem_cons_self
    rcases below j (List.mem_append_left _ early) lower with free | own
    · rw [free]
    · rw [own]
      exact if_pos rfl

end

/-- The claim table when port `c` has taken the items of a list. -/
def takenTable (c : CpId) (items : List ItemId) (h : Table (Option CpId) 264) : Table (Option CpId) 264 :=
  items.foldl (fun h i => h.put i (some c)) h

theorem takenTable_look (c : CpId) (items : List ItemId) (h : Table (Option CpId) 264) (i : ItemId) :
    (takenTable c items h).look i = if i ∈ items then some c else h.look i := by
  induction items generalizing h with
  | nil => simp [takenTable]
  | cons j items ih =>
    refine (ih (h.put j (some c))).trans ?_
    rw [Table.look_put]
    by_cases later : i ∈ items
    · simp [later]
    · simp [later, eq_comm]

/-- R98: taking items touches the claim table alone. -/
theorem takeItems_eq (c : CpId) (items : List ItemId) (s : State) :
    takeItems c items s = { s with holders := takenTable c items s.holders } := by
  induction items generalizing s with
  | nil => rfl
  | cons j items ih => exact ih (setHolder j (some c) s)

/-- Settles O20: `heldElsewhere` finds nothing, or the lowest item of another port. -/
theorem claimIsAllOrNothing : Obligations.ClaimIsAllOrNothing := by
  intro c tag first count s taken
  refine ⟨fun range unheld => ?_, fun i h range inside held other below => ?_, fun outside => ?_⟩
  · have nobody : heldElsewhere (served s c 0x08 tag) c (rangeItems first count) = none :=
      heldElsewhere_none fun i mem => unheld i (mem_rangeItems.mp mem)
    refine ⟨takenTable c (freeOf s (rangeItems first count)) s.holders,
      congrArg Host.Outcome.next (command_replied taken _ tag _ _ _ _ ?_ rfl), fun i => ?_⟩
    · rw [← length_filter_rangeItems]
      simp only [effectClaim, (rangeOk_iff _ _ _).mpr range, Bool.not_true, Bool.false_eq_true, if_false,
        nobody, takeItems_eq]
      rfl
    · simp only [takenTable_look, freeOf, List.mem_filter, mem_rangeItems, decide_eq_true_iff]
      by_cases inside : InItems first count i
      · rcases unheld i inside with free | own
        · rw [if_pos ⟨inside, free⟩, if_pos inside]
        · rw [own, ite_self, if_pos inside]
      · rw [if_neg fun both => inside both.1, if_neg inside]
  · have lowest : heldElsewhere (served s c 0x08 tag) c (rangeItems first count) = some (i, h) :=
      heldElsewhere_lowest (rangeItems_rising first count) (mem_rangeItems.mpr inside) held other
        fun j mem => below j (mem_rangeItems.mp mem)
    refine congrArg Host.Outcome.next (command_replied taken _ tag _ _ _ s ?_ rfl)
    simp only [effectClaim, (rangeOk_iff _ _ _).mpr range, Bool.not_true, Bool.false_eq_true, if_false,
      lowest]
    rfl
  · exact next_refused taken .badArg (by rw [effectClaim, rangeOk_eq_false outside]; rfl)

/-! ## READ CLAIMS, READ QUEUE and KEEPALIVE (R103, R130, R155) -/

/-- Settles O24: the codes of the holders in item order, and the lane's Take Unit field by field. -/
theorem readClaimsAndReadQueueAnswer : Obligations.ReadClaimsAndReadQueueAnswer := by
  intro c tag a first s taken
  refine ⟨fun range => ?_, fun outside => ?_, fun l named => ?_, fun outside => ?_⟩
  · refine congrArg Host.Outcome.next (command_answered taken _ tag _ _ ?_)
    rw [effectReadClaims, (rangeOk_iff _ _ _).mpr range, rangeItems_eq]
    rfl
  · exact next_refused taken .badArg (by rw [effectReadClaims, rangeOk_eq_false outside]; rfl)
  · have timer : (s.takes.look l).timer.bytes = match (s.takes.look l).timer with
        | .idle => [0, 0]
        | .counting n => [1, BitVec.ofNat 8 n] := by
      cases (s.takes.look l).timer <;> rfl
    refine congrArg Host.Outcome.next
      ((command_answered taken _ tag _ (queuePayload (s.takes.look l) c) ?_).trans ?_)
    · rw [effectReadQueue, named]
      rfl
    · rw [queuePayload, timer]
      rfl
  · have unnamed : laneField a = none := asFin_eq_none outside
    exact next_refused taken .badArg (by rw [effectReadQueue, unnamed])

/-- Settles O13: a KEEPALIVE has no effect, so the answer is all that a taken block leaves. -/
theorem keepaliveRefreshesItsPortAlone : Obligations.KeepaliveRefreshesItsPortAlone := fun _ tag _ taken =>
  congrArg Host.Outcome.next (command_answered taken 0x01 tag (answer []) [] rfl)

/-! ## Commands of the senior port from another (R97) -/

theorem watchOk_iff (late : BitVec 16) (lost : Byte) :
    watchOk late.toNat lost.toNat = true ↔ WatchRange late lost := by
  simp [watchOk, and_assoc]

/-- The caller is not the senior port, as a taken command's effect sees it. -/
theorem isSenior_served_false {s : State} {c : CpId} (h : s.senior ≠ some c) (code tag : Byte) :
    isSenior (served s c code tag) c = false := decide_eq_false h

section
variable {s : State} {c : CpId} (junior : isSenior s c = false)
include junior

theorem effectSeize_junior {first : BitVec 16} {count : Byte} (range : ItemRange 24 first count) :
    effectSeize c first count s = refuse .notSenior s := by
  simp only [effectSeize, (rangeOk_iff _ _ _).mpr range, junior, Bool.not_true, Bool.false_eq_true,
    Bool.not_false, if_false, if_true]

theorem effectSetWatch_junior {late : BitVec 16} {lost : Byte} (range : WatchRange late lost) :
    effectSetWatch c late lost s = refuse .notSenior s := by
  simp only [effectSetWatch, (watchOk_iff _ _).mpr range, junior, Bool.not_true, Bool.false_eq_true,
    Bool.not_false, if_false, if_true]

theorem effectCheckTest_junior {v : BitVec 16} (inRange : v.toNat < 256) :
    effectCheckTest c v s = refuse .notSenior s := by
  have named : destField v = some ⟨v.toNat, inRange⟩ := destField_eq_some rfl
  simp only [effectCheckTest, named, junior, Bool.not_false, if_true]

theorem effectSetPortRef_junior {a b : Byte} (port : a.toNat < 4) (lane : b.toNat < 8) :
    effectSetPortRef c a b s = refuse .notSenior s := by
  have port : sapField a = some ⟨a.toNat, port⟩ := asFin_eq_some rfl
  have lane : laneField b = some ⟨b.toNat, lane⟩ := asFin_eq_some rfl
  simp only [effectSetPortRef, port, lane, junior, Bool.not_false, if_true]

theorem effectSetTone_junior {a : Byte} (low : -30 ≤ a.toInt) (high : a.toInt ≤ -10) :
    effectSetTone c a s = refuse .notSenior s := by
  simp only [effectSetTone, (toneOk_iff _).mpr ⟨low, high⟩, junior, Bool.not_true, Bool.false_eq_true,
    Bool.not_false, if_false, if_true]

theorem effectSetLineMask_junior {a : Byte} (inRange : a.toNat < 64) :
    effectSetLineMask c a s = refuse .notSenior s := by
  rw [effectSetLineMask, high_bits_eq, if_neg (by simpa using inRange), if_pos (by simp [junior])]

theorem effectSetGuard_junior {a : Byte} (inRange : a.toNat < 2) :
    effectSetGuard c a s = refuse .notSenior s := by
  have either := (lt_two_iff a).mp inRange
  rw [effectSetGuard, if_neg (not_and_or.mpr (either.imp not_not.mpr not_not.mpr)),
    if_pos (by simp [junior])]

theorem restartChecks_junior (effect : Effect) : restartChecks c effect s = refuse .notSenior s := by
  rw [restartChecks, if_pos (by simp [junior])]

end

/-- Settles O23, command by command. -/
theorem seniorCommandsAreRefusedToOthers : Obligations.SeniorCommandsAreRefusedToOthers := by
  intro c tag a b v straps s taken other
  have junior (code : Byte) := isSenior_served_false other code tag
  exact ⟨fun range => next_refused taken .notSenior (effectSeize_junior (junior _) range),
    fun range => next_refused taken .notSenior (effectSetWatch_junior (junior _) range),
    fun dest => next_refused taken .notSenior (effectCheckTest_junior (junior _) dest),
    fun port lane => next_refused taken .notSenior (effectSetPortRef_junior (junior _) port lane),
    fun low high => next_refused taken .notSenior (effectSetTone_junior (junior _) low high),
    fun mask => next_refused taken .notSenior (effectSetLineMask_junior (junior _) mask),
    fun value => next_refused taken .notSenior (effectSetGuard_junior (junior _) value),
    next_refused taken .notSenior (restartChecks_junior (junior _) _),
    next_refused taken .notSenior ((congrFun (if_pos rfl) _).trans (restartChecks_junior (junior _) _))⟩

end Sys2Proof.Machine.ClaimRanges
end

section
/-! PROOFS. The resets by supply and pin (R97, R167, R169): each is the reset of every block, which keeps the
store. -/

namespace Sys2Proof.Machine.Resets

/-- R78: an entry at the reset, field by field. -/
theorem entryAtReset_fields : entryAtReset.source = 257 ∧ entryAtReset.tag = 0x40 ∧
    entryAtReset.counted = .none ∧ entryAtReset.delay = 64 ∧ entryAtReset.readIndex = 0 ∧
    entryAtReset.fade = none ∧ entryAtReset.nudge = none ∧ entryAtReset.health = .good ∧
    entryAtReset.matches = true :=
  ⟨rfl, rfl, rfl, rfl, rfl, rfl, rfl, rfl, beq_self_eq_true entryAtReset.code⟩

section
variable (pending : List Instr) (now choices : Nat) (phase : Phase) (low : Bool) (senior : Option CpId)
  (store : StoreContent)

/-- Every block's table of reset values, looked up. -/
theorem blockReset_atReset :
    AtReset (State.blockReset pending now choices phase low senior store) := by
  simp [AtReset, State.blockReset, laneAtReset, readerAtReset, groupReadAtReset, writerAtReset, zeroBlock,
    storeRead, sapAtReset, takeAtReset, portAtReset, entryAtReset_fields]

/-- R169: no line is driven while the engine is held in reset. -/
theorem lines_released (held : phase = .heldReset) :
    faultLine (State.blockReset pending now choices phase low senior store) = false ∧
      ∀ c, alertLine (State.blockReset pending now choices phase low senior store) c = false := by
  subst held
  exact ⟨rfl, fun _ => rfl⟩

end

/-- R165, R167: a save in progress has left a torn image. -/
theorem SaveForm.torn {s : State} (form : SaveForm s) (busy : s.saving.isSome = true) : s.store = .torn :=
  (form.2 busy).1

/-- R97: the straps in the two bits that the start-up samples. -/
theorem seniorOf_cases (straps : BitVec 2) :
    (straps = 0b00 → seniorOf straps = none) ∧ (straps = 0b01 → seniorOf straps = some 0) ∧
      (straps = 0b10 → seniorOf straps = some 1) ∧ (straps = 0b11 → seniorOf straps = some 2) := by
  refine ⟨?_, ?_, ?_, ?_⟩ <;> rintro rfl <;> rfl

/-- Settles O10: start-up, the hold at the reset and the supply failure are each a reset of every block. -/
theorem resetsKeepOnlyTheStore : Obligations.ResetsKeepOnlyTheStore := by
  refine ⟨fun straps s => ?_, fun straps s => ?_, fun straps s => ⟨fun unpowered => ?_, fun free => ?_, ?_⟩⟩
  · refine ⟨startUp straps { s with resetLow := false }, fun high => ?_, fun held => ?_,
      blockReset_atReset _ _ _ _ _ _ _, rfl, rfl, rfl, rfl, rfl, rfl, seniorOf_cases straps⟩
    · refine congrArg Host.Outcome.next ?_
      rw [powerUp, high, startUp, high]
      rfl
    · exact congrArg Host.Outcome.next (if_pos held)
  · obtain ⟨fault, alert⟩ := lines_released s.pending s.now s.choices _ true s.senior s.store rfl
    exact ⟨holdAtReset s, fun low => congrArg Host.Outcome.next (if_pos low),
      fun powered => congrArg Host.Outcome.next (if_neg powered),
      blockReset_atReset _ _ _ _ _ _ _, rfl, rfl, rfl, rfl, rfl, fault, alert, SaveForm.torn⟩
  · exact congrArg Host.Outcome.next (if_pos unpowered)
  · exact congrArg Host.Outcome.next (if_neg free)
  · exact ⟨powerLoss s, rfl, blockReset_atReset _ _ _ _ _ _ _, rfl, rfl, rfl, rfl, rfl, SaveForm.torn⟩

end Sys2Proof.Machine.Resets
end

section
/-! PROOFS. What a withdrawal leaves of one lane's Take Unit (R127, R128): each batch without the changes that go,
the emptied batches gone, and the timer loaded afresh where the head left; and that withdrawals one after another
are one. -/

namespace Sys2Proof.Machine.Withdrawals

/-! ## One lane's Take Unit -/

/-- No batch of the queue is empty (R115). -/
def BatchesFilled (t : TakeUnit) : Prop := ∀ b ∈ t.queue, b.changes ≠ []

/-- What is left of a batch when the changes that `gone` names have left it (R128). -/
def batchLeft (gone : CpId → Change → Bool) (b : Batch) : Batch :=
  { b with changes := b.changes.filter fun x => !gone b.owner x }

/-- What is left of a queue: the batches left empty have left it (R128). -/
def queueLeft (gone : CpId → Change → Bool) (q : List Batch) : List Batch :=
  (q.map (batchLeft gone)).filter fun b => !b.changes.isEmpty

/-- The timer, the COMMAND hold and the mark of a head that waits, as a removal of the head leaves them (R127). -/
def HeadLoaded (t u : TakeUnit) : Prop :=
  match u.queue with
  | [] => u.timer = .idle ∧ u.holdCommand = false ∧ u.freshHead = false
  | h :: _ => u.timer = .counting h.delay ∧ u.holdCommand = t.holdCommand ∧
      (u.freshHead = true → t.freshHead = true)

/-- From `t` to `u` the changes of each port `k` that `gone k` names have left a lane's Take Unit, and nothing
else has (R127, R128). -/
structure TakeLoses (gone : CpId → Change → Bool) (t u : TakeUnit) : Prop where
  staging : ∀ k, u.staging.look k = (t.staging.look k).filter fun x => !gone k x
  queue : u.queue = queueLeft gone t.queue
  closure : u.closureCounter = t.closureCounter
  park : u.holdPark = t.holdPark
  kept : (∀ b, t.queue.head? = some b → (batchLeft gone b).changes ≠ []) →
    u.timer = t.timer ∧ u.holdCommand = t.holdCommand ∧ u.freshHead = t.freshHead
  loaded : ∀ b, t.queue.head? = some b → (batchLeft gone b).changes = [] → HeadLoaded t u

section
variable {gone more : CpId → Change → Bool}

/-- What two removals leave of a batch is what one removal of both leaves. -/
theorem batchLeft_batchLeft (b : Batch) : batchLeft more (batchLeft gone b) =
    batchLeft (fun k x => gone k x || more k x) b := by
  simp only [batchLeft, List.filter_filter, Bool.not_or, Bool.and_comm]

theorem queueLeft_cons (b : Batch) (q : List Batch) : queueLeft gone (b :: q) =
    if (batchLeft gone b).changes = [] then queueLeft gone q
    else batchLeft gone b :: queueLeft gone q := by
  by_cases empty : (batchLeft gone b).changes = [] <;> simp [queueLeft, empty]

/-- A batch that is left empty stays empty, so it may leave the queue at either removal. -/
theorem queueLeft_queueLeft (q : List Batch) :
    queueLeft more (queueLeft gone q) = queueLeft (fun k x => gone k x || more k x) q := by
  induction q with
  | nil => rfl
  | cons b q ih =>
    rw [queueLeft_cons, queueLeft_cons]
    split_ifs with first both both
    · exact ih
    · refine absurd ?_ both
      rw [← batchLeft_batchLeft]
      simp only [batchLeft, List.filter_eq_nil_iff] at first ⊢
      simp [List.filter_eq_nil_iff.mpr first]
    · rw [queueLeft_cons, batchLeft_batchLeft, if_pos both, ih]
    · rw [queueLeft_cons, batchLeft_batchLeft, if_neg both, ih]

end

section
variable {gone more : CpId → Change → Bool} {t u v : TakeUnit}

theorem TakeLoses.filled (h : TakeLoses gone t u) : BatchesFilled u := by
  intro b mem
  rw [h.queue] at mem
  simpa using (List.mem_filter.mp mem).2

/-- Where no waiting change is named, a Take Unit may stay as it is. -/
theorem TakeLoses.of_none (filled : BatchesFilled t) (staged : ∀ k, ∀ x ∈ t.staging.look k, gone k x = false)
    (queued : ∀ b ∈ t.queue, ∀ x ∈ b.changes, gone b.owner x = false) : TakeLoses gone t t := by
  have whole (b : Batch) (mem : b ∈ t.queue) : batchLeft gone b = b := by
    have same : b.changes.filter (fun x => !gone b.owner x) = b.changes :=
      List.filter_eq_self.mpr fun x here => by simp [queued b mem x here]
    rw [batchLeft, same]
  refine ⟨fun k => ?_, ?_, rfl, rfl, fun _ => ⟨rfl, rfl, rfl⟩, fun b head empty => ?_⟩
  · exact (List.filter_eq_self.mpr fun x here => by simp [staged k x here]).symm
  · rw [queueLeft, List.map_congr_left whole, List.map_id']
    exact (List.filter_eq_self.mpr fun b mem => by simpa using filled b mem).symm
  · have mem := List.mem_of_mem_head? head
    rw [whole b mem] at empty
    exact absurd empty (filled b mem)

/-- The head after a removal that leaves some of its changes. -/
theorem queueLeft_head {b : Batch} {q : List Batch} (head : q.head? = some b)
    (some : (batchLeft gone b).changes ≠ []) : (queueLeft gone q).head? = .some (batchLeft gone b) := by
  obtain ⟨rest, rfl⟩ := List.head?_eq_some_iff.mp head
  rw [queueLeft_cons, if_neg some, List.head?_cons]

/-- Emptied at the first removal, a batch is emptied by both. -/
theorem batchLeft_both_ne {b : Batch}
    (both : (batchLeft (fun c x => gone c x || more c x) b).changes ≠ []) :
    (batchLeft gone b).changes ≠ [] := by
  intro first
  refine both ?_
  rw [← batchLeft_batchLeft, batchLeft, first, List.filter_nil]

/-- The head that has been loaded may leave at a later removal. -/
theorem HeadLoaded.trans (h : HeadLoaded t u) (k : TakeLoses more u v) : HeadLoaded t v := by
  unfold HeadLoaded at h
  split at h
  · rename_i empty
    obtain ⟨timer, hold, fresh⟩ := k.kept (by simp [empty])
    have empty' : v.queue = [] := by rw [k.queue, empty]; rfl
    rw [HeadLoaded, empty', timer, hold, fresh]
    exact h
  · rename_i b rest cons
    obtain ⟨timer, hold, fresh⟩ := h
    have head : u.queue.head? = some b := by rw [cons, List.head?_cons]
    by_cases stays : (batchLeft more b).changes = []
    · have loaded := k.loaded b head stays
      unfold HeadLoaded at loaded ⊢
      split
      · rename_i empty
        rwa [empty] at loaded
      · rename_i b' rest' cons'
        rw [cons'] at loaded
        obtain ⟨timer', hold', fresh'⟩ := loaded
        exact ⟨timer', hold'.trans hold, fresh ∘ fresh'⟩
    · obtain ⟨timer', hold', fresh'⟩ := k.kept fun b' head' => by
        cases head.symm.trans head'
        exact stays
      have cons' := queueLeft_head (gone := more) head stays
      rw [← k.queue] at cons'
      obtain ⟨rest', cons'⟩ := List.head?_eq_some_iff.mp cons'
      rw [HeadLoaded, cons', timer', hold', fresh']
      exact ⟨timer, hold, fresh⟩

/-- Removals one after another are one removal. -/
theorem TakeLoses.trans (h : TakeLoses gone t u) (k : TakeLoses more u v) :
    TakeLoses (fun c x => gone c x || more c x) t v := by
  refine ⟨fun c => ?_, ?_, k.closure.trans h.closure, k.park.trans h.park, fun stays => ?_,
    fun b head empty => ?_⟩
  · rw [k.staging, h.staging, List.filter_filter]
    simp only [Bool.not_or, Bool.and_comm]
  · rw [k.queue, h.queue, queueLeft_queueLeft]
  · obtain ⟨timer, hold, fresh⟩ := h.kept fun b head => batchLeft_both_ne (stays b head)
    rw [← timer, ← hold, ← fresh]
    refine k.kept fun b' head' => ?_
    cases queue : t.queue with
    | nil =>
      rw [h.queue, queue] at head'
      cases head'
    | cons b rest =>
      have head : t.queue.head? = some b := by rw [queue, List.head?_cons]
      rw [h.queue, queueLeft_head head (batchLeft_both_ne (stays b head))] at head'
      cases head'
      rw [batchLeft_batchLeft]
      exact stays b head
  · by_cases first : (batchLeft gone b).changes = []
    · exact (h.loaded b head first).trans k
    · obtain ⟨_, hold, fresh⟩ := h.kept fun b' head' => by
        cases head.symm.trans head'
        exact first
      have head' : u.queue.head? = some (batchLeft gone b) := by rw [h.queue, queueLeft_head head first]
      have loaded := k.loaded _ head' (by rw [batchLeft_batchLeft]; exact empty)
      unfold HeadLoaded at loaded ⊢
      rwa [hold, fresh] at loaded

end

/-! ## The withdrawal of one port for one destination (R128) -/

/-- The changes of port `c` for destination `d`. -/
def changeOfPort (c : CpId) (d : DestId) (k : CpId) (x : Change) : Bool := decide (k = c ∧ x.dest = d)

theorem without_eq_batchLeft (c : CpId) (d : DestId) (b : Batch) :
    b.without c d = batchLeft (changeOfPort c d) b := by
  unfold Batch.without batchLeft changeOfPort changesNotFor
  split
  · rename_i own
    simp [own]
  · rename_i other
    simp [other]

/-- The Take Unit without the changes of port `c` for destination `d`, before its timer is looked at. -/
def bereft (c : CpId) (d : DestId) (t : TakeUnit) : TakeUnit :=
  { t with
    staging := t.staging.put c (changesNotFor d (t.staging.look c))
    queue := queueLeft (changeOfPort c d) t.queue }

theorem bereft_staging (c : CpId) (d : DestId) (t : TakeUnit) (k : CpId) :
    (bereft c d t).staging.look k = (t.staging.look k).filter fun x => !changeOfPort c d k x := by
  rw [bereft, Table.look_put]
  by_cases own : c = k
  · subst own
    simp [changesNotFor, changeOfPort]
  · have other : k ≠ c := fun h => own h.symm
    simp [own, other, changeOfPort]

/-- R127: the timer is loaded afresh exactly where the head has been left empty. -/
theorem withdrawn_eq (c : CpId) (d : DestId) (t : TakeUnit) : t.withdrawn c d =
    if ∃ b, t.queue.head? = some b ∧ (batchLeft (changeOfPort c d) b).changes = [] then (bereft c d t).reload
    else bereft c d t := by
  have without : Batch.without c d = batchLeft (changeOfPort c d) := funext (without_eq_batchLeft c d)
  have emptied : t.headEmptied c d = true ↔
      ∃ b, t.queue.head? = some b ∧ (batchLeft (changeOfPort c d) b).changes = [] := by
    unfold TakeUnit.headEmptied
    split
    · rename_i empty
      simp [empty]
    · rename_i b rest cons
      simp [cons, without]
  unfold TakeUnit.withdrawn
  dsimp only
  simp only [emptied, without]
  rfl

/-- R127: a timer loaded afresh counts from the head's delay, or is IDLE without one. -/
theorem reload_headLoaded (t : TakeUnit) : HeadLoaded t t.reload := by
  unfold TakeUnit.reload
  split
  · rename_i empty
    simp only [HeadLoaded, empty, and_self]
  · rename_i b rest cons
    simp only [HeadLoaded, cons, true_and, Bool.and_eq_true]
    exact And.left

theorem withdrawn_loses (c : CpId) (d : DestId) (t : TakeUnit) :
    TakeLoses (changeOfPort c d) t (t.withdrawn c d) := by
  rw [withdrawn_eq]
  split_ifs with emptied
  · obtain ⟨timer, hold, fresh, reload⟩ := (bereft c d t).reload_frame
    obtain ⟨b, head, empty⟩ := emptied
    refine ⟨fun k => ?_, ?_, ?_, ?_, fun stays => absurd empty (stays b head),
      fun _ _ _ => reload_headLoaded (bereft c d t)⟩
    · rw [reload]
      exact bereft_staging c d t k
    all_goals rw [reload]; rfl
  · exact ⟨bereft_staging c d t, rfl, rfl, rfl, fun _ => ⟨rfl, rfl, rfl⟩,
      fun b head empty => absurd ⟨b, head, empty⟩ emptied⟩

/-! ## The changes of a port on a lane -/

theorem mem_changesBy {t : TakeUnit} {k : CpId} {x : Change} : x ∈ changesBy t k ↔
    x ∈ t.staging.look k ∨ ∃ b ∈ t.queue, b.owner = k ∧ x ∈ b.changes := by
  simp only [changesBy, List.mem_append, List.mem_flatMap]
  refine or_congr Iff.rfl (exists_congr fun b => and_congr Iff.rfl ?_)
  by_cases own : b.owner = k <;> simp [own]

theorem changesOf_eq (c : CpId) (d : DestId) (t : TakeUnit) :
    t.changesOf c d = (changesBy t c).filter fun x => decide (x.dest = d) := by
  rw [TakeUnit.changesOf, changesBy, List.filter_append, List.filter_flatMap]
  refine congrArg (changesFor d (t.staging.look c) ++ ·) (List.flatMap_congr fun b _ => ?_)
  split <;> rfl

section
variable {gone : CpId → Change → Bool} {t u : TakeUnit}

/-- After a removal a port has the changes that were not named. -/
theorem TakeLoses.changesBy_eq (h : TakeLoses gone t u) (k : CpId) :
    changesBy u k = (changesBy t k).filter fun x => !gone k x := by
  have queue (q : List Batch) :
      ((queueLeft gone q).flatMap fun b => if b.owner = k then b.changes else []) =
      (q.flatMap fun b => if b.owner = k then b.changes else []).filter fun x => !gone k x := by
    induction q with
    | nil => rfl
    | cons b q ih =>
      rw [queueLeft_cons, List.flatMap_cons, List.filter_append, ← ih]
      have left : (if b.owner = k then b.changes else []).filter (fun x => !gone k x) =
          if b.owner = k then (batchLeft gone b).changes else [] := by
        split
        · rename_i own
          rw [batchLeft, own]
        · rfl
      rw [left]
      split_ifs with empty own own
      · rw [empty, List.nil_append]
      · rw [List.nil_append]
      · rw [List.flatMap_cons]
        exact congrArg (· ++ _) (if_pos own)
      · rw [List.flatMap_cons]
        exact congrArg (· ++ _) (if_neg own)
  rw [changesBy, changesBy, h.staging, h.queue, queue, List.filter_append]

/-- Where no port has a change that is named, a Take Unit may stay as it is. -/
theorem TakeLoses.of_absent (filled : BatchesFilled t) (absent : ∀ k, ∀ x ∈ changesBy t k, gone k x = false) :
    TakeLoses gone t t :=
  .of_none filled (fun k x staged => absent k x (mem_changesBy.mpr (.inl staged)))
    fun b queued x here => absent b.owner x (mem_changesBy.mpr (.inr ⟨b, queued, rfl, here⟩))

end

/-! ## The namings of a record on a lane (R140) -/

theorem namedBy_append (n : TagId) (a b : List Change) : namedBy n (a ++ b) = namedBy n a + namedBy n b :=
  List.countP_append

/-- Every waiting change of a lane belongs to one port. -/
theorem namedBy_allChanges (n : TagId) (t : TakeUnit) :
    namedBy n t.allChanges = ∑ k : CpId, namedBy n (changesBy t k) := by
  have queue (q : List Batch) : namedBy n (q.flatMap (·.changes)) =
      ∑ k : CpId, namedBy n (q.flatMap fun b => if b.owner = k then b.changes else []) := by
    induction q with
    | nil => rfl
    | cons b q ih =>
      have own : ∑ k : CpId, namedBy n (if b.owner = k then b.changes else []) = namedBy n b.changes := by
        rw [Finset.sum_eq_single b.owner (fun k _ other => by rw [if_neg other.symm]; rfl) (by simp), if_pos rfl]
      simp only [List.flatMap_cons, namedBy_append, Finset.sum_add_distrib, ih, own]
  simp only [TakeUnit.allChanges, namedBy_append, queue, changesBy, Finset.sum_add_distrib,
    Fin.sum_univ_three, Nat.add_assoc]

/-- R140: the namings that a removal takes away are those of the changes that go. -/
theorem TakeLoses.namedBy_eq {gone : CpId → Change → Bool} {t u : TakeUnit} (h : TakeLoses gone t u) (n : TagId) :
    namedBy n t.allChanges = namedBy n u.allChanges + ∑ k : CpId, namedBy n ((changesBy t k).filter (gone k)) := by
  rw [namedBy_allChanges, namedBy_allChanges, ← Finset.sum_add_distrib]
  refine Finset.sum_congr rfl fun k _ => ?_
  rw [h.changesBy_eq, Nat.add_comm]
  exact List.countP_eq_countP_filter_add _ _ (gone k)

end Sys2Proof.Machine.Withdrawals
end

section
/-! PROOFS. What a withdrawal leaves of the state (R101, R128, R140): the waiting changes of every lane, the notice,
and the tag counts; and what ports that give up claim items give up with them. -/

namespace Sys2Proof.Machine.Withdrawals

open ChangesApplied

/-! ## Changes that end (R113, R140) -/

/-- Each change that ends takes its naming of a record with it. -/
theorem endChanges_look (cs : List Change) (s : State) (n : TagId) :
    ((endChanges cs s).tags.look n).content = (s.tags.look n).content ∧
      ((endChanges cs s).tags.look n).count = (s.tags.look n).count - namedBy n cs := by
  induction cs generalizing s with
  | nil => exact ⟨rfl, rfl⟩
  | cons x cs ih =>
    obtain ⟨content, count⟩ := ih (endChange x s)
    obtain ⟨content', count'⟩ := countDown_look (x.tag.getD .none) s n
    have naming : x.tag.getD .none = .record n ↔ x.tag = some (.record n) := by
      cases x.tag <;> simp
    refine ⟨content.trans content', count.trans ?_⟩
    have head : namedBy n (x :: cs) = namedBy n cs + if x.tag = some (.record n) then 1 else 0 := by
      simp only [namedBy, List.countP_cons, decide_eq_true_eq]
    simp only [endChange, count', Nat.sub_sub, head, Nat.add_comm, naming]

/-- The namings of a record, lane by lane. -/
theorem namings_eq (s : State) (n : TagId) : namings s n =
    ((List.finRange 256).countP fun d => decide ((s.entries.look d).counted = TagRef.record n)) +
      ∑ l : LaneId, namedBy n (s.takes.look l).allChanges := by
  rw [Fin.sum_univ_def, namings]

/-- Where one lane's Take Unit changes, the namings change with its waiting changes. -/
theorem namings_modTake (l : LaneId) (f : TakeUnit → TakeUnit) (s : State) (n : TagId) :
    namings (modTake l f s) n + namedBy n (s.takes.look l).allChanges =
      namings s n + namedBy n (f (s.takes.look l)).allChanges := by
  have split (g : LaneId → Nat) : ∑ k, g k = g l + ∑ k ∈ Finset.univ.erase l, g k :=
    (Finset.add_sum_erase _ _ (Finset.mem_univ l)).symm
  have others : ∑ k ∈ Finset.univ.erase l, namedBy n ((modTake l f s).takes.look k).allChanges =
      ∑ k ∈ Finset.univ.erase l, namedBy n (s.takes.look k).allChanges :=
    Finset.sum_congr rfl fun k mem => by rw [modTake_look_ne _ _ (Finset.ne_of_mem_erase mem).symm]
  rw [namings_eq, namings_eq, modTake_entries, split, split, others, modTake_look_self]
  omega

/-- The counts are those of the namings, and that is all that `CountForm` asks (R138, R140). -/
theorem countForm_congr {s t : State} (entries : t.entries = s.entries) (takes : t.takes = s.takes)
    (counts : ∀ n, (t.tags.look n).count = (s.tags.look n).count)
    (free : ∀ n, (t.tags.look n).content = none → (s.tags.look n).content = none)
    (form : CountForm s) : CountForm t := by
  intro n
  obtain ⟨named, unwritten⟩ := form n
  rw [counts, namings, entries, takes]
  exact ⟨named, fun h => unwritten (free n h)⟩

/-! ## Withdrawals from the lanes (R128) -/

/-- R151: a notice is set on its port, and every other notice stays. -/
theorem noticeSet_setNotice (c k : CpId) (m n : Notice) (s : State) :
    noticeSet (setNotice c m s) k n = (noticeSet s k n || decide (k = c ∧ n = m)) := by
  unfold noticeSet setNotice
  rw [modPort_look]
  split_ifs with own
  · subst own
    rw [CtrlPort.notify_getLsbD]
    simp
  · have other : k ≠ c := fun h => own h.symm
    simp [other]

/-- From `s` to `t` the changes of a port `k` on a lane `l` that `gone k l` names have been withdrawn, and no
other: the port is told, the counts follow, and each lane's Take Unit loses them. -/
structure Withdraws (gone : CpId → LaneId → Change → Bool) (s t : State) : Prop where
  told : ∀ k, noticeSet t k .withdrawn = true ↔
    noticeSet s k .withdrawn = true ∨ ∃ l, ∃ x ∈ changesBy (s.takes.look l) k, gone k l x = true
  counts : CountForm s → CountForm t
  lanes : ∀ l, TakeLoses (fun k => gone k l) (s.takes.look l) (t.takes.look l)

/-- No batch of any lane is empty. -/
def QueuesFilled (s : State) : Prop := ∀ l, BatchesFilled (s.takes.look l)

theorem TakesForm.filled {s : State} (form : TakesForm s) : QueuesFilled s := by
  intro l b mem empty
  obtain ⟨_, _, _, batches, _⟩ := form l
  have count := (batches b mem).1
  rw [empty] at count
  exact absurd count (by decide)

section
variable {gone more : CpId → LaneId → Change → Bool} {s t u : State}

theorem Withdraws.filled (h : Withdraws gone s t) : QueuesFilled t := fun l => (h.lanes l).filled

theorem Withdraws.withdrawn (h : Withdraws gone s t) : Withdrawn s t gone :=
  ⟨h.told, fun _ => h.counts, fun l =>
    have loses := h.lanes l
    ⟨loses.staging, loses.queue, loses.closure, loses.park, loses.kept, loses.loaded⟩⟩

theorem Withdraws.trans (h : Withdraws gone s t) (k : Withdraws more t u) :
    Withdraws (fun c l x => gone c l x || more c l x) s u := by
  refine ⟨fun c => ?_, k.counts ∘ h.counts, fun l => (h.lanes l).trans (k.lanes l)⟩
  rw [k.told, h.told, or_assoc]
  refine or_congr Iff.rfl ?_
  simp only [(h.lanes _).changesBy_eq, List.mem_filter, Bool.not_eq_true', Bool.or_eq_true]
  constructor
  · rintro (⟨l, x, mem, first⟩ | ⟨l, x, ⟨mem, _⟩, second⟩)
    · exact ⟨l, x, mem, .inl first⟩
    · exact ⟨l, x, mem, .inr second⟩
  · rintro ⟨l, x, mem, either⟩
    by_cases first : gone c l x = true
    · exact .inl ⟨l, x, mem, first⟩
    · exact .inr ⟨l, x, ⟨mem, Bool.not_eq_true _ ▸ first⟩, either.resolve_left first⟩

/-- Where no waiting change is named and none leaves. -/
theorem Withdraws.none_gone (filled : QueuesFilled s)
    (absent : ∀ k l, ∀ x ∈ changesBy (s.takes.look l) k, gone k l x = false)
    (takes : t.takes = s.takes) (counts : CountForm s → CountForm t)
    (told : ∀ k, noticeSet t k .withdrawn = noticeSet s k .withdrawn) : Withdraws gone s t := by
  refine ⟨fun k => ?_, counts, fun l => ?_⟩
  · rw [told]
    refine ⟨.inl, fun h => h.elim id ?_⟩
    rintro ⟨l, x, mem, named⟩
    cases (absent k l x mem).symm.trans named
  · rw [takes]
    exact .of_absent (filled l) fun k => absent k l

end

/-! ## One port and one destination (R101, R128) -/

section
variable (c : CpId) (d : DestId) (s : State)

/-- The changes of port `c` for destination `d`, which wait on the lane that times it. -/
def changesOnLane (k : CpId) (l : LaneId) (x : Change) : Bool :=
  decide (timingLane s d = l) && changeOfPort c d k x

/-- A withdrawal takes nothing away where the port has no change for the destination. -/
theorem withdraw_nothing (none : (s.takes.look (timingLane s d)).changesOf c d = []) :
    withdraw c d s = s := by
  simp only [withdraw, none]

/-- R128. -/
theorem withdraw_something {x : Change} {xs : List Change}
    (some : (s.takes.look (timingLane s d)).changesOf c d = x :: xs) :
    withdraw c d s = setNotice c .withdrawn
      (endChanges (x :: xs) (modTake (timingLane s d) (TakeUnit.withdrawn c d) s)) := by
  simp only [withdraw, some]

/-- R140: of the namings on a lane, a withdrawal takes those of the port's changes for the destination. -/
theorem withdrawn_namedBy (n : TagId) (t : TakeUnit) : namedBy n t.allChanges =
    namedBy n (t.withdrawn c d).allChanges + namedBy n (t.changesOf c d) := by
  rw [(withdrawn_loses c d t).namedBy_eq n,
    Finset.sum_eq_single c (fun k _ other => ?_) (by simp), changesOf_eq]
  · have own : changeOfPort c d c = fun x => decide (x.dest = d) := by
      funext x
      simp only [changeOfPort, true_and]
    rw [own]
  · have none : (changesBy t k).filter (changeOfPort c d k) = [] := by
      simp [changeOfPort, other]
    rw [none]
    rfl

/-- R140: the counts follow the changes that a port loses. -/
theorem withdraw_counts (form : CountForm s) : CountForm (endChanges
    ((s.takes.look (timingLane s d)).changesOf c d) (modTake (timingLane s d) (TakeUnit.withdrawn c d) s)) := by
  intro n
  obtain ⟨content, count⟩ := endChanges_look ((s.takes.look (timingLane s d)).changesOf c d)
    (modTake (timingLane s d) (TakeUnit.withdrawn c d) s) n
  obtain ⟨g, frame⟩ := endChanges_frame ((s.takes.look (timingLane s d)).changesOf c d)
    (modTake (timingLane s d) (TakeUnit.withdrawn c d) s)
  have after : namings (endChanges ((s.takes.look (timingLane s d)).changesOf c d)
      (modTake (timingLane s d) (TakeUnit.withdrawn c d) s)) n =
      namings (modTake (timingLane s d) (TakeUnit.withdrawn c d) s) n := by
    rw [frame]
    rfl
  have lane := namings_modTake (timingLane s d) (TakeUnit.withdrawn c d) s n
  have gone := withdrawn_namedBy c d n (s.takes.look (timingLane s d))
  obtain ⟨named, unwritten⟩ := form n
  rw [content, count, after, modTake_tags]
  refine ⟨by omega, fun free => ?_⟩
  rw [unwritten free, Nat.zero_sub]

/-- R128: the changes of a port for a destination have been withdrawn. -/
theorem withdraw_withdraws (filled : QueuesFilled s) :
    Withdraws (changesOnLane c d s) s (withdraw c d s) := by
  have mine (k : CpId) (l : LaneId) (x : Change) : (x ∈ changesBy (s.takes.look l) k ∧
      changesOnLane c d s k l x = true) ↔
      k = c ∧ l = timingLane s d ∧ x ∈ (s.takes.look (timingLane s d)).changesOf c d := by
    simp only [changesOnLane, changeOfPort, Bool.and_eq_true, decide_eq_true_eq, changesOf_eq, List.mem_filter]
    constructor
    · rintro ⟨mem, rfl, rfl, rfl⟩
      exact ⟨rfl, rfl, mem, rfl⟩
    · rintro ⟨rfl, rfl, mem, rfl⟩
      exact ⟨mem, rfl, rfl, rfl⟩
  cases changes : (s.takes.look (timingLane s d)).changesOf c d with
  | nil =>
    rw [withdraw_nothing c d s changes]
    refine .none_gone filled (fun k l x mem => ?_) rfl id fun _ => rfl
    by_contra named
    have := ((mine k l x).mp ⟨mem, Bool.not_eq_false _ ▸ named⟩).2.2
    rw [changes] at this
    cases this
  | cons x xs =>
    have counts := withdraw_counts c d s
    rw [withdraw_something c d s changes]
    rw [changes] at counts
    obtain ⟨g, frame⟩ := endChanges_frame (x :: xs) (modTake (timingLane s d) (TakeUnit.withdrawn c d) s)
    rw [frame] at counts ⊢
    refine ⟨fun k => ?_, fun form => countForm_congr rfl rfl (fun _ => rfl) (fun _ h => h) (counts form),
      fun l => ?_⟩
    · rw [noticeSet_setNotice, Bool.or_eq_true, decide_eq_true_iff, and_iff_left rfl]
      refine or_congr Iff.rfl ⟨?_, ?_⟩
      · rintro rfl
        obtain ⟨mem, named⟩ := (mine k (timingLane s d) x).mpr
          ⟨rfl, rfl, by rw [changes]; exact List.mem_cons_self⟩
        exact ⟨timingLane s d, x, mem, named⟩
      · rintro ⟨l, y, mem, named⟩
        exact ((mine k l y).mp ⟨mem, named⟩).1
    · show TakeLoses _ _ ((modTake (timingLane s d) (TakeUnit.withdrawn c d) s).takes.look l)
      by_cases own : timingLane s d = l
      · subst own
        rw [modTake_look_self]
        have named : (fun k => changesOnLane c d s k (timingLane s d)) = changeOfPort c d := by
          funext k x
          simp [changesOnLane]
        rw [named]
        exact withdrawn_loses c d _
      · rw [modTake_look_ne _ _ own]
        exact .of_absent (filled l) fun k x _ => by simp [changesOnLane, own]

end

end Sys2Proof.Machine.Withdrawals
end

section
/-! PROOFS. Claim items that leave a port's hold (R99, R100, R101, R128): what ports lose with them, and the commands
RELEASE and SEIZE. -/

namespace Sys2Proof.Machine.ClaimMoves

open Withdrawals ClaimRanges Settings

/-! ## Items that ports lose -/

/-- The changes that ports lose with items: those for a destination whose claim has left their hold, on the lane
that times it (R101, R128). -/
def changesLost (lost : CpId → ItemId → Bool) (s : State) (k : CpId) (l : LaneId) (x : Change) : Bool :=
  lost k (destItem x.dest) && decide (timingLane s x.dest = l)

/-- From `s` to `t` each port `k` has lost the items that `lost k` names, as far as its waiting changes go; no
content of a record changes, and ports gain notices among `may` alone. -/
structure GivesWay (may : List Notice) (lost : CpId → ItemId → Bool) (s t : State) : Prop where
  frame : GivesUp s t
  withdraws : QueuesFilled s → Withdraws (changesLost lost s) s t
  content : ∀ n, (t.tags.look n).content = (s.tags.look n).content
  ports : ∀ k, PortGains may (s.ports.look k) (t.ports.look k)

section
variable {may : List Notice} {lost more : CpId → ItemId → Bool} {s t u : State}

/-- The timing lane of a destination hangs on the audio ports alone (R66). -/
theorem timingLane_of_givesUp (h : GivesUp s t) : timingLane t = timingLane s := by
  obtain ⟨_, _, _, _, rfl⟩ := h
  rfl

theorem GivesWay.trans (h : GivesWay may lost s t) (k : GivesWay may more t u) :
    GivesWay may (fun c i => lost c i || more c i) s u := by
  refine ⟨.trans _ _ _ h.frame k.frame, fun filled => ?_, fun n => (k.content n).trans (h.content n),
    fun c => (h.ports c).trans (k.ports c)⟩
  have first := h.withdraws filled
  have both := first.trans (k.withdraws first.filled)
  have named : (fun c l x => changesLost lost s c l x || changesLost more t c l x) =
      changesLost (fun c i => lost c i || more c i) s := by
    funext c l x
    simp only [changesLost, timingLane_of_givesUp h.frame, Bool.and_or_distrib_right]
  rwa [named] at both

theorem GivesWay.weaken {may' : List Notice} (h : GivesWay may lost s t) (sub : ∀ n ∈ may, n ∈ may') :
    GivesWay may' lost s t :=
  ⟨h.frame, h.withdraws, h.content, fun k => (h.ports k).weaken sub⟩

/-- Where no port loses an item. -/
theorem GivesWay.quiet (frame : GivesUp s t) (takes : t.takes = s.takes) (tags : t.tags = s.tags)
    (told : ∀ k, noticeSet t k .withdrawn = noticeSet s k .withdrawn)
    (ports : ∀ k, PortGains may (s.ports.look k) (t.ports.look k)) :
    GivesWay may (fun _ _ => false) s t := by
  have entries : t.entries = s.entries := by
    obtain ⟨_, _, _, _, rfl⟩ := frame
    rfl
  exact ⟨frame, fun filled => .none_gone filled (fun _ _ _ _ => rfl) takes
    (countForm_congr entries takes (fun n => by rw [tags]) fun n => by rw [tags]; exact id) told,
    fun n => by rw [tags], ports⟩

end

/-! ## One item -/

section
variable (c : CpId) (i : ItemId) (s : State)

theorem setHolder_gives (h : Option CpId) (may : List Notice) :
    GivesWay may (fun _ _ => false) s (setHolder i h s) :=
  .quiet ⟨_, s.takes, s.tags, s.ports, rfl⟩ rfl rfl (fun _ => rfl) fun _ => .refl _ _

/-- R151: a notice on one port. -/
theorem setNotice_gains (n : Notice) (k : CpId) :
    PortGains [n] (s.ports.look k) ((setNotice c n s).ports.look k) := by
  rw [setNotice, modPort_look]
  split_ifs with own
  · rw [← own]
    exact .notify _ _ (List.mem_singleton.mpr rfl)
  · exact .refl _ _

/-- A withdrawal changes no content of a record, and tells the port alone. -/
theorem withdraw_gains (d : DestId) :
    (∀ n, ((withdraw c d s).tags.look n).content = (s.tags.look n).content) ∧
      (∀ k, PortGains [.withdrawn] (s.ports.look k) ((withdraw c d s).ports.look k)) ∧
      ∀ k, k ≠ c → (withdraw c d s).ports.look k = s.ports.look k := by
  cases changes : (s.takes.look (timingLane s d)).changesOf c d with
  | nil =>
    rw [withdraw_nothing c d s changes]
    exact ⟨fun _ => rfl, fun _ => .refl _ _, fun _ _ => rfl⟩
  | cons x xs =>
    have content := endChanges_look (x :: xs) (modTake (timingLane s d) (TakeUnit.withdrawn c d) s)
    have gains := setNotice_gains c (endChanges (x :: xs)
      (modTake (timingLane s d) (TakeUnit.withdrawn c d) s)) .withdrawn
    obtain ⟨g, frame⟩ := endChanges_frame (x :: xs) (modTake (timingLane s d) (TakeUnit.withdrawn c d) s)
    rw [withdraw_something c d s changes]
    rw [frame] at content gains ⊢
    exact ⟨fun n => (content n).1, gains, fun k other => modPort_look_ne _ _ other.symm⟩

/-- R101, R128: a destination is handed over for withdrawal. -/
theorem withdraw_gives (d : DestId) :
    GivesWay [.withdrawn] (fun k j => decide (k = c ∧ j = destItem d)) s (withdraw c d s) := by
  have named : changesLost (fun k j => decide (k = c ∧ j = destItem d)) s = changesOnLane c d s := by
    funext k l x
    have item : destItem x.dest = destItem d ↔ x.dest = d := by
      simp [destItem, Fin.ext_iff]
    simp only [changesLost, changesOnLane, changeOfPort, item]
    by_cases dest : x.dest = d <;> simp [dest, Bool.and_comm]
  obtain ⟨content, gains, _⟩ := withdraw_gains c s d
  obtain ⟨t, g, p, frame⟩ := withdraw_frame c d s
  refine ⟨⟨s.holders, t, g, p, frame⟩, fun filled => ?_, content, gains⟩
  rw [named]
  exact withdraw_withdraws c d s filled

theorem itemDest_destItem (d : DestId) : itemDest (destItem d) = some d := asFin_eq_some rfl

theorem eq_destItem_of_itemDest {d : DestId} (h : itemDest i = some d) : i = destItem d := by
  unfold itemDest asFin at h
  split_ifs at h
  cases h
  rfl

/-- R101: a lane control item hands over nothing. -/
theorem withdrawItem_gives :
    GivesWay [.withdrawn] (fun k j => decide (k = c ∧ j = i)) s (withdrawItem c i s) := by
  unfold withdrawItem
  split
  · rename_i d item
    rw [eq_destItem_of_itemDest i item]
    exact withdraw_gives c s d
  · rename_i lane
    have named : changesLost (fun k j => decide (k = c ∧ j = i)) s = changesLost (fun _ _ => false) s := by
      funext k l x
      have other : destItem x.dest ≠ i := by
        rintro rfl
        cases (itemDest_destItem x.dest).symm.trans lane
      simp [changesLost, other]
    have none : GivesWay [.withdrawn] (fun _ _ => false) s s :=
      .quiet (.refl s) rfl rfl (fun _ => rfl) fun _ => .refl _ _
    exact ⟨none.frame, named ▸ none.withdraws, none.content, none.ports⟩

/-- R101, R151: only the port that loses the item is told. -/
theorem withdrawItem_other {k : CpId} (other : k ≠ c) :
    (withdrawItem c i s).ports.look k = s.ports.look k := by
  unfold withdrawItem
  split
  · exact (withdraw_gains c s _).2.2 k other
  · rfl

/-- R101: a withdrawal leaves the claims. -/
theorem withdrawItem_holders : (withdrawItem c i s).holders = s.holders := by
  obtain ⟨_, _, _, frame⟩ := withdrawItem_frame c i s
  rw [frame]

end

/-! ## Items given up (R99, R107) -/

section
variable (c : CpId)

/-- R99: one item is given up. -/
theorem freeItem_gives (i : ItemId) (s : State) :
    GivesWay [.withdrawn] (fun k j => decide (k = c ∧ j = i)) s (freeItem c i s) := by
  have both := (setHolder_gives i s none [.withdrawn]).trans (withdrawItem_gives c i (setHolder i none s))
  simpa only [freeItem, Bool.false_or] using both

/-- What is left where items have been given up one after another, whoever held them. -/
theorem foldl_freeItem (items : List ItemId) (s : State) :
    GivesWay [.withdrawn] (fun k j => decide (k = c ∧ j ∈ items)) s
        (items.foldl (fun s i => freeItem c i s) s) ∧
      (∀ j, (items.foldl (fun s i => freeItem c i s) s).holders.look j =
        if j ∈ items then none else s.holders.look j) ∧
      ∀ k, k ≠ c → (items.foldl (fun s i => freeItem c i s) s).ports.look k = s.ports.look k := by
  induction items generalizing s with
  | nil =>
    refine ⟨?_, fun j => by simp, fun _ _ => rfl⟩
    simpa using GivesWay.quiet (may := [.withdrawn]) (.refl s) rfl rfl (fun _ => rfl) fun _ => .refl _ _
  | cons i items ih =>
    obtain ⟨gives, holders, ports⟩ := ih (freeItem c i s)
    refine ⟨?_, fun j => ?_, fun k other => ?_⟩
    · have both := (freeItem_gives c i s).trans gives
      have named : (fun k j => decide (k = c ∧ j = i) || decide (k = c ∧ j ∈ items)) =
          fun k j => decide (k = c ∧ j ∈ i :: items) := by
        funext k j
        simp only [List.mem_cons, and_or_left, Bool.decide_or]
      rwa [named] at both
    · rw [List.foldl_cons, holders, freeItem, withdrawItem_holders, setHolder_look]
      by_cases later : j ∈ items
      · simp [later]
      · simp [later, eq_comm]
    · rw [List.foldl_cons, ports k other, freeItem, withdrawItem_other c i _ other]
      rfl

/-- R99, R107: a port gives up what it holds of a list. -/
theorem freeItems_gives (items : List ItemId) (s : State) :
    GivesWay [.withdrawn] (fun k j => decide (k = c ∧ j ∈ items ∧ s.holders.look j = some c)) s
      (freeItems c items s) := by
  have gives := (foldl_freeItem c (heldItems s c items) s).1
  simpa only [freeItems, heldItems, List.mem_filter, decide_eq_true_eq] using gives

theorem freeItems_holders (items : List ItemId) (s : State) (j : ItemId) :
    (freeItems c items s).holders.look j =
      if j ∈ items ∧ s.holders.look j = some c then none else s.holders.look j := by
  have holders := (foldl_freeItem c (heldItems s c items) s).2.1 j
  simpa only [freeItems, heldItems, List.mem_filter, decide_eq_true_eq] using holders

theorem freeItems_other (items : List ItemId) (s : State) {k : CpId} (other : k ≠ c) :
    (freeItems c items s).ports.look k = s.ports.look k :=
  (foldl_freeItem c (heldItems s c items) s).2.2 k other

end

/-! ## Items seized (R100) -/

section
variable (c : CpId)

theorem seizeItem_holders (i : ItemId) (s : State) (j : ItemId) :
    (seizeItem c i s).holders.look j = if j = i then some c else s.holders.look j := by
  unfold seizeItem
  split
  · rw [setHolder_look]
    simp only [eq_comm]
  · rename_i h held
    split_ifs with own this this
    · rw [this, held, own]
    · rfl
    · rw [withdrawItem_holders, this]
      exact setHolder_look_self _ _ _
    · rw [withdrawItem_holders]
      exact (setHolder_look i (some c) s j).trans (if_neg fun eq => this eq.symm)

/-- R100: the port that held the item loses it, where that is another port. -/
theorem seizeItem_gives (i : ItemId) (s : State) : GivesWay [.claimLost, .withdrawn]
    (fun k j => decide (k ≠ c ∧ j = i ∧ s.holders.look i = some k)) s (seizeItem c i s) := by
  unfold seizeItem
  split
  · rename_i free
    simpa only [free, reduceCtorEq, and_false, decide_false] using setHolder_gives i s (some c) _
  · rename_i h held
    split_ifs with own
    · have named : (fun k j => decide (k ≠ c ∧ j = i ∧ s.holders.look i = some k)) = fun _ _ => false := by
        funext k j
        simp only [held, Option.some.injEq, decide_eq_false_iff_not]
        rintro ⟨other, _, rfl⟩
        exact other own
      rw [named]
      exact .quiet (.refl s) rfl rfl (fun _ => rfl) fun _ => .refl _ _
    · have told : GivesWay [.claimLost, .withdrawn] (fun _ _ => false) s
          (setNotice h .claimLost (setHolder i (some c) s)) :=
        .quiet ⟨_, s.takes, s.tags, _, rfl⟩ rfl rfl (fun k => by rw [noticeSet_setNotice]; simp [noticeSet])
          fun k => (setNotice_gains h (setHolder i (some c) s) .claimLost k).weaken (by simp)
      have both := told.trans ((withdrawItem_gives h i _).weaken (may' := [.claimLost, .withdrawn]) (by simp))
      have named : (fun k j => false || decide (k = h ∧ j = i)) =
          fun k j => decide (k ≠ c ∧ j = i ∧ s.holders.look i = some k) := by
        funext k j
        rw [Bool.false_or, decide_eq_decide, held, Option.some.injEq]
        constructor
        · rintro ⟨rfl, rfl⟩
          exact ⟨own, rfl, rfl⟩
        · rintro ⟨_, rfl, rfl⟩
          exact ⟨rfl, rfl⟩
      rwa [named] at both

/-- R100, R151: the ports that an item does not leave keep everything; the one that it leaves is told. -/
theorem seizeItem_ports (i : ItemId) (s : State) (k : CpId) :
    ((k = c ∨ s.holders.look i ≠ some k) → (seizeItem c i s).ports.look k = s.ports.look k) ∧
      (noticeSet (seizeItem c i s) k .claimLost = true ↔
        noticeSet s k .claimLost = true ∨ k ≠ c ∧ s.holders.look i = some k) := by
  unfold seizeItem
  split
  · rename_i free
    simp [free, noticeSet]
  · rename_i h held
    split_ifs with own
    · simp only [implies_true, true_and, held, Option.some.injEq]
      exact ⟨.inl, fun either => either.elim id fun ⟨other, same⟩ => absurd (same.symm.trans own) other⟩
    · refine ⟨fun apart => ?_, ?_⟩
      · have other : k ≠ h := by
          rintro rfl
          exact apart.elim own fun none => none held
        rw [withdrawItem_other h i _ other]
        exact modPort_look_ne _ _ other.symm
      · have kept := ((withdrawItem_gives h i (setNotice h .claimLost (setHolder i (some c) s))).ports k).2
          .claimLost |>.2 (by simp)
        unfold noticeSet at kept ⊢
        rw [kept]
        refine (Bool.eq_iff_iff.mp (noticeSet_setNotice h k .claimLost .claimLost _)).trans ?_
        rw [Bool.or_eq_true, decide_eq_true_iff, held, Option.some.injEq]
        refine or_congr Iff.rfl ⟨?_, ?_⟩
        · rintro ⟨rfl, _⟩
          exact ⟨own, rfl⟩
        · rintro ⟨_, rfl⟩
          exact ⟨rfl, rfl⟩

/-- R100: what is left where items have been seized one after another. -/
theorem foldl_seizeItem (items : List ItemId) (s : State) :
    GivesWay [.claimLost, .withdrawn] (fun k j => decide (k ≠ c ∧ j ∈ items ∧ s.holders.look j = some k)) s
        (items.foldl (fun s i => seizeItem c i s) s) ∧
      (∀ j, (items.foldl (fun s i => seizeItem c i s) s).holders.look j =
        if j ∈ items then some c else s.holders.look j) ∧
      (∀ k, (k = c ∨ ∀ j ∈ items, s.holders.look j ≠ some k) →
        (items.foldl (fun s i => seizeItem c i s) s).ports.look k = s.ports.look k) ∧
      ∀ k, noticeSet (items.foldl (fun s i => seizeItem c i s) s) k .claimLost = true ↔
        noticeSet s k .claimLost = true ∨ k ≠ c ∧ ∃ j ∈ items, s.holders.look j = some k := by
  induction items generalizing s with
  | nil =>
    refine ⟨?_, fun j => by simp, fun _ _ => rfl, fun k => by simp⟩
    simpa using GivesWay.quiet (may := [.claimLost, .withdrawn]) (.refl s) rfl rfl (fun _ => rfl)
      fun _ => .refl _ _
  | cons i items ih =>
    obtain ⟨gives, holders, ports, told⟩ := ih (seizeItem c i s)
    have later (k : CpId) (other : k ≠ c) (j : ItemId) :
        (seizeItem c i s).holders.look j = some k ↔ j ≠ i ∧ s.holders.look j = some k := by
      rw [seizeItem_holders]
      split_ifs with this
      · simp [this, other.symm]
      · simp [this]
    refine ⟨?_, fun j => ?_, fun k apart => ?_, fun k => ?_⟩
    · have both := (seizeItem_gives c i s).trans gives
      have named : (fun k j => decide (k ≠ c ∧ j = i ∧ s.holders.look i = some k) ||
            decide (k ≠ c ∧ j ∈ items ∧ (seizeItem c i s).holders.look j = some k)) =
          fun k j => decide (k ≠ c ∧ j ∈ i :: items ∧ s.holders.look j = some k) := by
        funext k j
        rw [← Bool.decide_or, decide_eq_decide]
        by_cases other : k = c
        · simp [other]
        · rw [later k other j]
          by_cases this : j = i <;> simp [this, other]
      rwa [named] at both
    · rw [List.foldl_cons, holders, seizeItem_holders]
      by_cases this : j = i <;> simp [this]
    · have first := (seizeItem_ports c i s k).1 (apart.imp_right fun none => none i List.mem_cons_self)
      refine (ports k ?_).trans first
      by_cases other : k = c
      · exact .inl other
      · refine .inr fun j mem held => ?_
        exact apart.resolve_left other j (List.mem_cons_of_mem _ mem) ((later k other j).mp held).2
    · rw [List.foldl_cons, told, (seizeItem_ports c i s k).2, or_assoc, ← and_or_left]
      refine or_congr Iff.rfl (and_congr_right fun other => ?_)
      simp only [later k other, List.exists_mem_cons_iff]
      constructor
      · rintro (this | ⟨j, mem, _, held⟩)
        · exact .inl this
        · exact .inr ⟨j, mem, held⟩
      · rintro (this | ⟨j, mem, held⟩)
        · exact .inl this
        · by_cases same : j = i
          · exact .inl (same ▸ held)
          · exact .inr ⟨j, mem, same, held⟩

end

/-! ## A command whose effect moves claims (R105, R146) -/

section
variable {may : List Notice} {p q : CtrlPort} {s t u : State} {c : CpId} {code tag : Byte}

/-- The waiting changes and the notices of withdrawals are as they were, and the counts stay in form. -/
structure SameWaiting (s t : State) : Prop where
  takes : t.takes = s.takes
  counts : CountForm s → CountForm t
  told : ∀ k, noticeSet t k .withdrawn = noticeSet s k .withdrawn

theorem withdraws_before {gone : CpId → LaneId → Change → Bool} (h : Withdraws gone s t)
    (same : SameWaiting t u) : Withdraws gone s u := by
  refine ⟨fun k => ?_, same.counts ∘ h.counts, fun l => ?_⟩
  · rw [← h.told, same.told]
  · rw [same.takes]
    exact h.lanes l

theorem withdraws_after {gone : CpId → LaneId → Change → Bool} (h : Withdraws gone t u)
    (same : SameWaiting s t) : Withdraws gone s u := by
  refine ⟨fun k => ?_, h.counts ∘ same.counts, fun l => ?_⟩
  · rw [h.told, same.told, same.takes]
  · rw [← same.takes]
    exact h.lanes l

/-- Where a change of one port leaves its notices, every notice stays. -/
theorem noticeSet_modPort {c : CpId} {f : CtrlPort → CtrlPort} {s : State}
    (h : (f (s.ports.look c)).notices = (s.ports.look c).notices) (k : CpId) (n : Notice) :
    noticeSet (modPort c f s) k n = noticeSet s k n := by
  unfold noticeSet
  rw [modPort_look]
  split_ifs with own
  · rw [h, own]
  · rfl

theorem modPort_same {c : CpId} {f : CtrlPort → CtrlPort} {s : State}
    (h : (f (s.ports.look c)).notices = (s.ports.look c).notices) : SameWaiting s (modPort c f s) :=
  ⟨rfl, countForm_congr rfl rfl (fun _ => rfl) fun _ => id, fun k => noticeSet_modPort h k .withdrawn⟩

theorem served_same (s : State) (c : CpId) (code tag : Byte) : SameWaiting s (served s c code tag) :=
  modPort_same rfl

theorem placeCompleted_same (c : CpId) (code tag : Byte) (r : Result) (payload : List Byte) (s : State) :
    SameWaiting s (placeCompleted c code tag r payload s) := modPort_same rfl

/-- R146, R148: a port that is answered gains what it gained while it was served. -/
theorem placeCompleted_gains (h : PortGains may (servedPort s c code tag (s.ports.look c)) (t.ports.look c))
    (r : Result) (payload : List Byte) : PortGains may
      (repliedPort s c ⟨code, tag, r, false, payload⟩ (s.ports.look c))
      ((placeCompleted c code tag r payload t).ports.look c) := by
  obtain ⟨port, gains⟩ := h
  rw [placeCompleted, modPort_look_self]
  refine ⟨?_, gains⟩
  rw [port]
  rfl

theorem placeCompleted_other (code tag : Byte) (r : Result) (payload : List Byte) {k : CpId} (other : k ≠ c) :
    (placeCompleted c code tag r payload t).ports.look k = t.ports.look k := modPort_look_ne _ _ other.symm

theorem served_other (code tag : Byte) {k : CpId} (other : k ≠ c) :
    (served s c code tag).ports.look k = s.ports.look k := modPort_look_ne _ _ other.symm

/-- A taken command that answers OK runs its effect on the served state. -/
theorem next_answered (taken : Takes s c) {effect : Effect} {payload : List Byte}
    (h : effect (served s c code tag) = answer payload t) :
    Host.Outcome.next (command c code tag effect s) =
      (.next (placeCompleted c code tag .ok payload t) : Host.Outcome State Fault Refusal) := by
  rw [command_taken taken, h]
  rfl

/-- What a taken command leaves whose effect moves claims. -/
theorem GivesWay.answered {lost : CpId → ItemId → Bool} (h : GivesWay may lost (served s c code tag) t)
    (r : Result) (payload : List Byte) :
    (∃ h k g p, placeCompleted c code tag r payload t =
        { s with holders := h, takes := k, tags := g, ports := p }) ∧
      (QueuesFilled s → Withdraws (changesLost lost s) s (placeCompleted c code tag r payload t)) ∧
      (∀ n, ((placeCompleted c code tag r payload t).tags.look n).content = (s.tags.look n).content) ∧
      PortGains may (repliedPort s c ⟨code, tag, r, false, payload⟩ (s.ports.look c))
        ((placeCompleted c code tag r payload t).ports.look c) ∧
      ∀ k, k ≠ c → PortGains may (s.ports.look k)
        ((placeCompleted c code tag r payload t).ports.look k) := by
  refine ⟨?_, fun filled => ?_, h.content, ?_, fun k other => ?_⟩
  · obtain ⟨holders, takes, tags, ports, frame⟩ := h.frame
    rw [frame]
    exact ⟨holders, takes, tags, _, rfl⟩
  · exact withdraws_after
      (withdraws_before (h.withdraws filled) (placeCompleted_same c code tag r payload t))
      (served_same s c code tag)
  · have gains := h.ports c
    rw [served_port] at gains
    exact placeCompleted_gains gains r payload
  · have gains := h.ports k
    rw [served_other code tag other] at gains
    rwa [placeCompleted_other code tag r payload other]

end

/-- Settles O21: `freeItems_gives` for what the caller loses, `freeItems_holders` for the claims. -/
theorem releaseFreesAndWithdraws : Obligations.ReleaseFreesAndWithdraws := by
  intro c tag first count s taken
  refine ⟨fun range => ?_, fun outside => ?_⟩
  · have effect : effectRelease c first count (served s c 0x09 tag) =
        answer [countItems first count fun i => decide (s.holders.look i = some c)]
          (freeItems c (rangeItems first count) (served s c 0x09 tag)) := by
      rw [← length_filter_rangeItems, effectRelease, (rangeOk_iff _ _ _).mpr range]
      rfl
    obtain ⟨⟨h, k, g, p, frame⟩, withdraws, content, port, _⟩ :=
      (freeItems_gives c (rangeItems first count) (served s c 0x09 tag)).answered .ok
        [countItems first count fun i => decide (s.holders.look i = some c)]
    refine ⟨_, next_answered taken effect, by rw [frame], fun i => ?_, fun form => ?_, content, port,
      fun k other => ?_⟩
    · have holders := freeItems_holders c (rangeItems first count) (served s c 0x09 tag) i
      simp only [mem_rangeItems] at holders
      exact holders
    · have named := (withdraws (TakesForm.filled form)).withdrawn
      convert named using 4 with k l x
      simp only [changesLost, mem_rangeItems, served_holders, ← Bool.decide_and, decide_eq_decide]
      tauto
    · rw [placeCompleted_other _ _ _ _ other, freeItems_other _ _ _ other, served_other _ _ other]
  · exact next_refused taken .badArg (by rw [effectRelease, rangeOk_eq_false outside]; rfl)

/-- Settles O22: `foldl_seizeItem` for the items, the waiting changes and the notices. -/
theorem seizeTakesEveryItem : Obligations.SeizeTakesEveryItem := by
  intro c tag first count s taken
  refine ⟨fun outside => ?_, fun senior range => ?_⟩
  · exact next_refused taken .badArg (by rw [effectSeize, rangeOk_eq_false outside]; rfl)
  · obtain ⟨gives, holders, ports, told⟩ := foldl_seizeItem c (rangeItems first count) (served s c 0x0A tag)
    have effect : effectSeize c first count (served s c 0x0A tag) =
        answer [countItems first count fun i => decide (s.holders.look i ≠ none ∧ s.holders.look i ≠ some c),
            countItems first count fun i => decide (s.holders.look i = none)]
          ((rangeItems first count).foldl (fun s i => seizeItem c i s) (served s c 0x0A tag)) := by
      rw [← length_filter_rangeItems, ← length_filter_rangeItems, effectSeize, (rangeOk_iff _ _ _).mpr range,
        isSenior_served senior]
      simp only [Bool.decide_and]
      rfl
    obtain ⟨⟨h, k, g, p, frame⟩, withdraws, content, _, gains⟩ := gives.answered .ok
      [countItems first count fun i => decide (s.holders.look i ≠ none ∧ s.holders.look i ≠ some c),
        countItems first count fun i => decide (s.holders.look i = none)]
    refine ⟨_, next_answered taken effect, by rw [frame], fun i => ?_, fun form => ?_, content, ?_,
      fun k other => ⟨gains k other, ?_, fun apart => ?_⟩⟩
    · simp only [mem_rangeItems] at holders
      exact holders i
    · have named := (withdraws (TakesForm.filled form)).withdrawn
      convert named using 4 with k l x
      simp only [changesLost, mem_rangeItems, served_holders, ← Bool.decide_and, decide_eq_decide]
      tauto
    · have own := ports c (.inl rfl)
      rw [served_port] at own
      rw [placeCompleted, modPort_look_self, own]
      rfl
    · have told := told k
      simp only [noticeSet, served_other 0x0A tag other, mem_rangeItems, served_holders] at told ⊢
      rw [placeCompleted_other _ _ _ _ other, told]
      simp only [ne_eq, other, not_false_eq_true, true_and, InItems, and_assoc]
    · rw [placeCompleted_other _ _ _ _ other, ports k (.inr fun i mem => ?_), served_other _ _ other]
      exact apart i (mem_rangeItems.mp mem)

end Sys2Proof.Machine.ClaimMoves
end

section
/-! PROOFS. The liveness of the control ports (R104 to R109): what a port gives up that becomes LOST, what PORT_LATE
and PORT_LOST leave, and the judgement of every port by SET WATCH. -/

namespace Sys2Proof.Machine.PortLiveness

open Withdrawals ClaimMoves ClaimRanges Settings

/-! ## What LOST ports give up (R101, R107) -/

/-- A holder or an author, where the ports that `dead` names have given it up. -/
def spared (dead : CpId → Bool) (h : Option CpId) : Option CpId :=
  match h with
  | none => none
  | some k => if dead k then none else some k

section
variable (dead more : CpId → Bool)

theorem spared_none (h : Option CpId) : spared (fun _ => false) h = h := by
  cases h <;> rfl

theorem spared_eq_some (h : Option CpId) (k : CpId) :
    spared dead h = some k ↔ h = some k ∧ dead k = false := by
  cases h with
  | none => simp [spared]
  | some j =>
    by_cases gone : dead j = true
    · simp only [spared, gone, if_true, reduceCtorEq, Option.some.injEq, false_iff]
      rintro ⟨rfl, kept⟩
      cases kept.symm.trans gone
    · simp only [spared, gone, Bool.false_eq_true, if_false, Option.some.injEq, iff_self_and]
      rintro rfl
      simpa using gone

theorem spared_spared (h : Option CpId) :
    spared more (spared dead h) = spared (fun k => dead k || more k) h := by
  cases h with
  | none => rfl
  | some k => by_cases gone : dead k = true <;> simp [spared, gone]

end

/-- The items that the ports named by `dead` hold, which they lose. -/
def heldByDead (dead : CpId → Bool) (s : State) (k : CpId) (i : ItemId) : Bool :=
  dead k && decide (s.holders.look i = some k)

/-- The ports that `dead` names have given up their claims, with the changes for them, and their records; every
claim, waiting change and record of any other port stays. -/
structure Losses (dead : CpId → Bool) (s t : State) : Prop where
  holders : ∀ i, t.holders.look i = spared dead (s.holders.look i)
  withdraws : QueuesFilled s → Withdraws (changesLost (heldByDead dead s) s) s t
  content : ∀ n, (t.tags.look n).content =
    (s.tags.look n).content.map fun x => { x with author := spared dead x.author }
  told : ∀ k, noticeSet t k .claimLost = true ↔
    noticeSet s k .claimLost = true ∨ dead k = true ∧ ∃ i, s.holders.look i = some k

section
variable {dead more : CpId → Bool} {s t u : State}

theorem Losses.lossesTaken (h : Losses dead s t) : LossesTaken dead s t := by
  refine ⟨h.holders, fun form => ?_, h.content, h.told⟩
  have named := (h.withdraws (TakesForm.filled form)).withdrawn
  convert named using 4 with k l x
  simp only [changesLost, heldByDead, Bool.decide_and, Bool.and_comm, Bool.and_left_comm]

theorem Losses.refl (s : State) : Losses (fun _ => false) s s := by
  refine ⟨fun i => (spared_none _).symm, fun filled => ?_, fun n => ?_, fun k => by simp⟩
  · exact .none_gone filled (fun _ _ _ _ => rfl) rfl id fun _ => rfl
  · simp only [spared_none, Option.map_id']

/-- Ports that become LOST one after another give up what they would at once. -/
theorem Losses.trans (h : Losses dead s t) (k : Losses more t u)
    (lanes : timingLane t = timingLane s) : Losses (fun c => dead c || more c) s u := by
  refine ⟨fun i => ?_, fun filled => ?_, fun n => ?_, fun c => ?_⟩
  · rw [k.holders, h.holders, spared_spared]
  · have first := h.withdraws filled
    have both := first.trans (k.withdraws first.filled)
    have named : (fun c l x => changesLost (heldByDead dead s) s c l x ||
          changesLost (heldByDead more t) t c l x) =
        changesLost (heldByDead (fun c => dead c || more c) s) s := by
      funext c l x
      have held : decide (t.holders.look (destItem x.dest) = some c) =
          (decide (s.holders.look (destItem x.dest) = some c) && !dead c) := by
        rw [h.holders]
        simp [spared_eq_some]
      simp only [changesLost, heldByDead, lanes, held]
      cases dead c <;> cases more c <;> simp
    rwa [named] at both
  · rw [k.content, h.content, Option.map_map]
    congr 1
    funext x
    simp only [Function.comp_apply, spared_spared]
  · rw [k.told, h.told, or_assoc]
    refine or_congr Iff.rfl ?_
    simp only [h.holders, spared_eq_some, Bool.or_eq_true]
    constructor
    · rintro (⟨gone, held⟩ | ⟨gone, i, held, _⟩)
      · exact ⟨.inl gone, held⟩
      · exact ⟨.inr gone, i, held⟩
    · rintro ⟨gone, i, held⟩
      by_cases first : dead c = true
      · exact .inl ⟨first, i, held⟩
      · exact .inr ⟨gone.resolve_left first, i, held, by simpa using first⟩

/-- Claims, waiting changes and records are as they were, and so are the notices about them. -/
structure SameClaims (s t : State) : Prop where
  holders : t.holders = s.holders
  tags : t.tags = s.tags
  waiting : SameWaiting s t
  told : ∀ k, noticeSet t k .claimLost = noticeSet s k .claimLost

theorem Losses.before (h : Losses dead s t) (same : SameClaims t u) : Losses dead s u := by
  refine ⟨fun i => ?_, fun filled => withdraws_before (h.withdraws filled) same.waiting, fun n => ?_, fun k => ?_⟩
  · rw [same.holders, h.holders]
  · rw [same.tags, h.content]
  · rw [same.told, h.told]

theorem Losses.after (h : Losses dead t u) (same : SameClaims s t) (lanes : timingLane t = timingLane s) :
    Losses dead s u := by
  refine ⟨fun i => ?_, fun filled => ?_, fun n => ?_, fun k => ?_⟩
  · rw [h.holders, same.holders]
  · have named : changesLost (heldByDead dead t) t = changesLost (heldByDead dead s) s := by
      funext k l x
      simp only [changesLost, heldByDead, lanes, same.holders]
    rw [← named]
    refine withdraws_after (h.withdraws ?_) same.waiting
    unfold QueuesFilled at filled ⊢
    rwa [same.waiting.takes]
  · rw [h.content, same.tags]
  · rw [h.told, same.told, same.holders]

end

/-! ## One port becomes LOST (R107) -/

/-- A port as its liveness changes. -/
def setLiveness (c : CpId) (x : Liveness) (s : State) : State := modPort c (fun p => { p with liveness := x }) s

/-- A port that becomes LOST has given up its claims. -/
def freed (c : CpId) (s : State) : State := freeItems c (List.finRange 264) (setLiveness c .lost s)

/-- The port is told where it held an item. -/
def claimTold (c : CpId) (s : State) : State :=
  if (heldItems s c (List.finRange 264)).isEmpty then freed c s else setNotice c .claimLost (freed c s)

/-- A port that becomes LOST, up to its fault flag. -/
def givenUp (c : CpId) (s : State) : State := dropAuthor c (claimTold c s)

/-- The liveness of every port once `c` has taken on `x`. -/
def livenessWith (c : CpId) (x : Liveness) (s : State) (k : CpId) : Liveness :=
  if k = c then x else (s.ports.look k).liveness

section
variable (c : CpId) (s : State)

theorem becomeLost_eq : becomeLost c s = setFlag (.portLost c) (givenUp c s) := rfl

theorem becomeLate_eq : becomeLate c s = setFlag (.portLate c) (setLiveness c .late s) := rfl

theorem setLiveness_port (x : Liveness) (k : CpId) : (setLiveness c x s).ports.look k =
    { s.ports.look k with liveness := livenessWith c x s k } := by
  rw [setLiveness, modPort_look, livenessWith]
  by_cases own : c = k
  · rw [if_pos own, if_pos own.symm, own]
  · rw [if_neg own, if_neg fun h => own h.symm]

theorem setLiveness_same (x : Liveness) : SameClaims s (setLiveness c x s) :=
  ⟨rfl, rfl, modPort_same rfl, fun k => noticeSet_modPort rfl k .claimLost⟩

theorem freed_gives : GivesWay [.withdrawn] (heldByDead (fun k => decide (k = c)) s)
    (setLiveness c .lost s) (freed c s) := by
  have gives := freeItems_gives c (List.finRange 264) (setLiveness c .lost s)
  have named : (fun k j => decide (k = c ∧ j ∈ List.finRange 264 ∧
      (setLiveness c .lost s).holders.look j = some c)) = heldByDead (fun k => decide (k = c)) s := by
    funext k j
    simp only [List.mem_finRange, true_and, heldByDead, ← Bool.decide_and, decide_eq_decide]
    refine and_congr_right fun own => ?_
    rw [own]
    exact Iff.rfl
  rwa [named] at gives

theorem heldItems_all_isEmpty : (heldItems s c (List.finRange 264)).isEmpty = true ↔
    ∀ i, s.holders.look i ≠ some c := by
  simp [heldItems]

/-- The port is told and nothing else changes. -/
theorem claimTold_frame : ∃ p, claimTold c s = { freed c s with ports := p } ∧
    (∀ k, PortGains (if k = c then [.claimLost] else []) ((freed c s).ports.look k) (p.look k)) ∧
    (noticeSet (claimTold c s) c .claimLost = true ↔
      noticeSet (freed c s) c .claimLost = true ∨ ∃ i, s.holders.look i = some c) := by
  unfold claimTold
  split
  · rename_i unheld
    rw [heldItems_all_isEmpty] at unheld
    exact ⟨_, rfl, fun _ => .refl _ _, .inl, fun either => either.resolve_right fun ⟨i, held⟩ => unheld i held⟩
  · rename_i held
    rw [heldItems_all_isEmpty] at held
    push Not at held
    refine ⟨(setNotice c .claimLost (freed c s)).ports, rfl, fun k => ?_, ?_⟩
    · by_cases own : k = c
      · rw [if_pos own]
        exact setNotice_gains c (freed c s) .claimLost k
      · rw [if_neg own, setNotice, modPort_look_ne _ _ fun h => own h.symm]
        exact .refl _ _
    · rw [noticeSet_setNotice]
      simp [held]

theorem dropAuthor_holders : (dropAuthor c s).holders = s.holders := by
  unfold dropAuthor
  rfl

theorem dropAuthor_takes : (dropAuthor c s).takes = s.takes := by
  unfold dropAuthor
  rfl

theorem dropAuthor_ports : (dropAuthor c s).ports = s.ports := by
  unfold dropAuthor
  rfl

theorem dropAuthor_entries : (dropAuthor c s).entries = s.entries := by
  unfold dropAuthor
  rfl

/-- R107: the records of the port become authorless. -/
theorem dropAuthor_content (n : TagId) : ((dropAuthor c s).tags.look n).content =
    (s.tags.look n).content.map fun x => { x with author := spared (fun k => decide (k = c)) x.author } := by
  unfold dropAuthor
  simp only [Table.look_gen]
  congr 1
  funext ⟨kind, label, user, author⟩
  cases author with
  | none => rfl
  | some k => by_cases own : k = c <;> simp [spared, own]

/-- R107: a record without its author is as often named. -/
theorem dropAuthor_count (form : CountForm s) : CountForm (dropAuthor c s) := by
  refine countForm_congr (dropAuthor_entries c s) (dropAuthor_takes c s) (fun n => ?_) (fun n => ?_) form
  · simp [dropAuthor]
  · simp [dropAuthor]

/-- R107: the claims, the changes and the records that `c` gives up, and the notice where it held an item. -/
theorem givenUp_losses : Losses (fun k => decide (k = c)) s (givenUp c s) := by
  have gives := freed_gives c s
  obtain ⟨p, frame, gains, told⟩ := claimTold_frame c s
  have notices (k : CpId) (n : Notice) (other : n ≠ .claimLost) :
      noticeSet (givenUp c s) k n = noticeSet (freed c s) k n := by
    have kept := ((gains k).2 n).2 fun mem => by
      split_ifs at mem
      · exact other (List.mem_singleton.mp mem)
      · cases mem
    unfold noticeSet
    rw [← kept, givenUp, dropAuthor_ports, frame]
  have same : SameWaiting (freed c s) (givenUp c s) := by
    refine ⟨?_, ?_, fun k => notices k .withdrawn (by decide)⟩
    · rw [givenUp, dropAuthor_takes, frame]
    · rw [givenUp, frame]
      exact fun form => dropAuthor_count _ _ (countForm_congr rfl rfl (fun _ => rfl) (fun _ => id) form)
  refine ⟨fun i => ?_, fun filled => ?_, fun n => ?_, fun k => ?_⟩
  · have left := freeItems_holders c (List.finRange 264) (setLiveness c .lost s) i
    have held : (givenUp c s).holders = (freed c s).holders := by
      rw [givenUp, dropAuthor_holders, frame]
    rw [held, freed, left]
    show (if i ∈ List.finRange 264 ∧ s.holders.look i = some c then none else s.holders.look i) = _
    cases s.holders.look i <;> simp [spared]
  · have named : changesLost (heldByDead (fun k => decide (k = c)) s) (setLiveness c .lost s) =
        changesLost (heldByDead (fun k => decide (k = c)) s) s := rfl
    have withdraws := gives.withdraws filled
    rw [named] at withdraws
    exact withdraws_before (withdraws_after withdraws (setLiveness_same c s .lost).waiting) same
  · rw [givenUp, dropAuthor_content, frame]
    show Option.map _ ((freed c s).tags.look n).content = _
    rw [gives.content n]
    rfl
  · have before : noticeSet (freed c s) k .claimLost = noticeSet s k .claimLost := by
      have kept := ((gives.ports k).2 .claimLost).2 (by decide)
      unfold noticeSet
      rw [kept]
      exact noticeSet_modPort rfl k .claimLost
    have after : noticeSet (givenUp c s) k .claimLost = noticeSet (claimTold c s) k .claimLost := by
      unfold noticeSet
      rw [givenUp, dropAuthor_ports]
    rw [after, ← before]
    by_cases own : k = c
    · subst own
      simpa using told
    · have kept := ((gains k).2 .claimLost).2 (by simp [own])
      have same : noticeSet (claimTold c s) k .claimLost = noticeSet (freed c s) k .claimLost := by
        unfold noticeSet
        rw [← kept, frame]
      simp [same, own]

end

/-! ## What a judgement leaves (R106, R107, R109) -/

/-- The notices that a port can gain with its loss (R107, R127). -/
def lossNotices (gone : Bool) : List Notice := if gone then [.claimLost, .withdrawn] else []

/-- Ports have been judged: those that `late` names have set PORT_LATE, those that `dead` names have become LOST
and set PORT_LOST, and each port's liveness is the one that `live` gives it. -/
structure Judged (late dead : CpId → Bool) (live : CpId → Liveness) (s t : State) : Prop where
  frame : LosesPort s t
  losses : Losses dead s t
  flags : ∀ f, flagSet t f = true ↔ flagSet s f = true ∨
    ∃ k, (f = .portLate k ∧ late k = true) ∨ (f = .portLost k ∧ dead k = true)
  ports : ∀ k, PortGains (.fault :: lossNotices (dead k)) { s.ports.look k with liveness := live k } (t.ports.look k)
  handed : ∀ k, FaultHanded s t k

section
variable {late dead late' dead' : CpId → Bool} {live live' : CpId → Liveness} {s t u : State}

/-- What a port gains does not hang on its liveness. -/
theorem portGains_liveness {may : List Notice} {p q : CtrlPort} {x : Liveness} (y : Liveness)
    (h : PortGains may { p with liveness := x } q) :
    PortGains may { p with liveness := y } { q with liveness := y } := by
  obtain ⟨port, notices⟩ := h
  refine ⟨?_, notices⟩
  rw [port]

/-- R152: a port is handed the flags newly set in two steps as it would be in one. -/
theorem faultHanded_trans {k : CpId} (h : FaultHanded s t k) (h' : FaultHanded t u k)
    (phase : t.phase = s.phase) (mask : (t.ports.look k).faultMask = (s.ports.look k).faultMask)
    (first : ∀ f, flagSet s f = true → flagSet t f = true)
    (second : ∀ f, flagSet t f = true → flagSet u f = true) : FaultHanded s u k := by
  unfold FaultHanded at h h' ⊢
  rw [h', h, phase, mask, or_assoc, ← and_or_left, ← exists_or]
  refine or_congr Iff.rfl (and_congr_right fun _ => exists_congr fun f => ?_)
  cases set : flagSet t f with
  | true => simp [second f set]
  | false =>
    have clear : flagSet s f = false := by
      by_contra before
      simp [first f (Bool.eq_true_of_not_eq_false before)] at set
    simp [clear]

theorem Judged.refl (s : State) : Judged (fun _ => false) (fun _ => false) (fun k => (s.ports.look k).liveness) s s :=
  ⟨.refl s, .refl s, fun f => by simp, fun k => .refl _ _, fun k => ((Tells.refl [] s).1.2 k).2⟩

theorem timingLane_of_losesPort (h : LosesPort s t) : timingLane t = timingLane s := by
  obtain ⟨_, _, _, _, _, rfl⟩ := h
  rfl

theorem phase_of_losesPort (h : LosesPort s t) : t.phase = s.phase := by
  obtain ⟨_, _, _, _, _, rfl⟩ := h
  rfl

theorem Judged.trans (h : Judged late dead live s t) (h' : Judged late' dead' live' t u) :
    Judged (fun k => late k || late' k) (fun k => dead k || dead' k) live' s u := by
  refine ⟨.trans _ _ _ h.frame h'.frame, h.losses.trans h'.losses (timingLane_of_losesPort h.frame), fun f => ?_,
    fun k => ?_, fun k => ?_⟩
  · rw [h'.flags, h.flags, or_assoc, ← exists_or]
    refine or_congr Iff.rfl (exists_congr fun k => ?_)
    simp only [Bool.or_eq_true]
    tauto
  · have first := (portGains_liveness (live' k) (h.ports k)).weaken
      (more := .fault :: lossNotices (dead k || dead' k)) (by cases dead k <;> simp [lossNotices])
    have second := (h'.ports k).weaken
      (more := .fault :: lossNotices (dead k || dead' k)) (by cases dead k <;> cases dead' k <;> simp [lossNotices])
    exact first.trans second
  · refine faultHanded_trans (h.handed k) (h'.handed k) (phase_of_losesPort h.frame) ?_
      (fun f set => (h.flags f).mpr (.inl set)) fun f set => (h'.flags f).mpr (.inl set)
    rw [(h.ports k).1]

/-- A port is judged and its one flag is set. -/
theorem Judged.of_setFlag {f : FaultFlag} (frame : GivesUp s u) (losses : Losses dead s u)
    (ports : ∀ k, PortGains (lossNotices (dead k)) { s.ports.look k with liveness := live k } (u.ports.look k))
    (named : ∀ g, g = f ↔ ∃ k, (g = .portLate k ∧ late k = true) ∨ (g = .portLost k ∧ dead k = true)) :
    Judged late dead live s (setFlag f u) := by
  obtain ⟨⟨_, tells⟩, _⟩ := setFlag_tells [] f u
  obtain ⟨v, p, flagged⟩ := setFlag_frame f u
  have flags : u.flags = s.flags := by
    obtain ⟨_, _, _, _, rfl⟩ := frame
    rfl
  have phase : u.phase = s.phase := by
    obtain ⟨_, _, _, _, rfl⟩ := frame
    rfl
  have kept (k : CpId) (n : Notice) (other : n ≠ .fault) :
      noticeSet (setFlag f u) k n = noticeSet u k n := ((tells k).1.2 n).2 (by simpa using other)
  have same : SameClaims u (setFlag f u) := by
    refine ⟨?_, ?_, ⟨?_, ?_, fun k => kept k .withdrawn (by decide)⟩, fun k => kept k .claimLost (by decide)⟩
    all_goals rw [flagged]
    exact countForm_congr rfl rfl (fun _ => rfl) fun _ => id
  refine ⟨?_, losses.before same, fun g => ?_, fun k => ?_, fun k => ?_⟩
  · obtain ⟨h, t, g, q, e⟩ := frame
    rw [flagged, e]
    exact ⟨h, t, g, p, v, rfl⟩
  · rw [flagSet_setFlag, Bool.or_eq_true, decide_eq_true_iff, named]
    simp only [flagSet, flags]
  · exact ((ports k).weaken fun _ => List.mem_cons_of_mem _).trans ((tells k).1.weaken (by simp))
  · have unfaulted : noticeSet u k .fault = noticeSet s k .fault :=
      ((ports k).2 .fault).2 (by cases dead k <;> simp [lossNotices])
    have mask : (u.ports.look k).faultMask = (s.ports.look k).faultMask := by rw [(ports k).1]
    have handed := (tells k).2
    simpa only [FaultHanded, unfaulted, mask, phase, flagSet, flags] using handed

end

section
variable (c : CpId) (s : State)

/-- R106: a port that becomes LATE. -/
theorem becomeLate_judged : Judged (fun k => decide (k = c)) (fun _ => false) (livenessWith c .late s) s
    (becomeLate c s) := by
  rw [becomeLate_eq]
  refine .of_setFlag ⟨_, _, _, _, rfl⟩ ((Losses.refl s).before (setLiveness_same c s .late))
    (fun k => ?_) fun g => ?_
  · rw [setLiveness_port]
    exact .refl _ _
  · simp

/-- R107: a port that becomes LOST. -/
theorem becomeLost_judged : Judged (fun _ => false) (fun k => decide (k = c)) (livenessWith c .lost s) s
    (becomeLost c s) := by
  obtain ⟨p, frame, gains, _⟩ := claimTold_frame c s
  have gives := freed_gives c s
  rw [becomeLost_eq]
  refine .of_setFlag ?_ (givenUp_losses c s) (fun k => ?_) fun g => ?_
  · obtain ⟨h, t, g, q, e⟩ := gives.frame
    rw [givenUp, frame, e]
    unfold dropAuthor
    exact ⟨h, t, _, p, rfl⟩
  · rw [givenUp, dropAuthor_ports, frame, ← setLiveness_port]
    by_cases own : k = c
    · have told := gains k
      rw [if_pos own] at told
      simp only [own, decide_true, lossNotices, if_true] at told ⊢
      exact ((gives.ports c).weaken (by simp)).trans (told.weaken (by simp))
    · have told := gains k
      rw [if_neg own, freed, freeItems_other _ _ _ own] at told
      simpa only [own, decide_false, lossNotices, Bool.false_eq_true, if_false] using told
  · simp

/-- The ports other than the judged one gain FAULT alone. -/
theorem Judged.other {late dead : CpId → Bool} {x : Liveness} {t : State}
    (h : Judged late dead (livenessWith c x s) s t) {k : CpId} (other : k ≠ c) (spares : dead k = false) : PortGains [.fault] (s.ports.look k) (t.ports.look k) := by
  have gains := h.ports k
  rwa [livenessWith, if_neg other, spares] at gains

/-- The judged port. -/
theorem Judged.self {late dead : CpId → Bool} {x : Liveness} {t : State}
    (h : Judged late dead (livenessWith c x s) s t) :
    PortGains (.fault :: lossNotices (dead c)) { s.ports.look c with liveness := x } (t.ports.look c) := by
  have gains := h.ports c
  rwa [livenessWith, if_pos rfl] at gains

end

/-- Settles O26: `becomeLate_judged` and `becomeLost_judged`, where the interval is due. -/
theorem latenessAndLossOfAPort : Obligations.LatenessAndLossOfAPort := by
  refine ⟨fun c s running live aged => ?_, fun c s running live aged => ?_⟩
  · have due : lateIntervalDue s c = true := by
      simp [lateIntervalDue, running, live, pastLate, watchTime, Config.tickMs, aged]
    have judged := becomeLate_judged c s
    refine ⟨becomeLate c s, ?_, ?_, judged.self, fun k other => judged.other c s other rfl, judged.handed,
      fun f => ?_⟩
    · show Host.Outcome.next (portLate c s) = _
      rw [portLate, if_pos due]
    · obtain ⟨v, p, frame⟩ := setFlag_frame (.portLate c) (setLiveness c .late s)
      rw [becomeLate_eq, frame]
      rfl
    · rw [judged.flags]
      simp [or_comm]
  · have due : lostIntervalDue s c = true := by
      simp [lostIntervalDue, running, live, pastLost, watchTime, Config.tickMs, aged]
    have judged := becomeLost_judged c s
    have gains := judged.self
    rw [decide_eq_true rfl] at gains
    refine ⟨becomeLost c s, ?_, ?_, judged.losses.lossesTaken, gains,
      fun k other => judged.other c s other (by simp [other]), judged.handed, fun f => ?_⟩
    · show Host.Outcome.next (portLost c s) = _
      rw [portLost, if_pos due]
    · obtain ⟨h, k, g, p, v, frame⟩ := judged.frame
      rw [frame]
    · rw [judged.flags]
      simp [or_comm]

/-! ## Every port judged (R109) -/

/-- A LIVE port whose watch timer has reached the late interval. -/
def overLate (s : State) (k : CpId) : Bool := decide ((s.ports.look k).liveness = .live) && pastLate s k

/-- A port that is not yet LOST whose watch timer has reached the lost interval. -/
def overLost (s : State) (k : CpId) : Bool := decide ((s.ports.look k).liveness ≠ .lost) && pastLost s k

/-- What a port's liveness is judged to be (R109). -/
def verdict (s : State) (k : CpId) : Liveness :=
  if overLost s k then .lost else if overLate s k then .late else (s.ports.look k).liveness

section
variable {c : CpId} {s t : State}

theorem lateIntervalDue_eq (running : s.phase = .running) : lateIntervalDue s c = overLate s c := by
  rw [lateIntervalDue, overLate, running]
  cases (s.ports.look c).liveness <;> rfl

theorem lostIntervalDue_eq (running : s.phase = .running) :
    lostIntervalDue s c = (decide ((s.ports.look c).liveness ≠ .live) && overLost s c) := by
  rw [lostIntervalDue, overLost, running]
  cases (s.ports.look c).liveness <;> rfl

theorem Judged.congr {late dead late' dead' : CpId → Bool} {live live' : CpId → Liveness}
    (h : Judged late dead live s t) (lates : ∀ k, late k = late' k) (deads : ∀ k, dead k = dead' k) (lives : ∀ k, live k = live' k) :
    Judged late' dead' live' s t := by
  rw [← funext lates, ← funext deads, ← funext lives]
  exact h

theorem portGains_watch {may : List Notice} {p q : CtrlPort} (h : PortGains may p q) :
    q.liveness = p.liveness ∧ q.watchAt = p.watchAt := by
  rw [h.1]
  exact ⟨rfl, rfl⟩

/-- A judgement reads only a port's liveness and watch timer, and the intervals. -/
theorem judged_same {k : CpId} (clock : t.now = s.now ∧ t.lateMs = s.lateMs ∧ t.lostSeconds = s.lostSeconds)
    (port : (t.ports.look k).liveness = (s.ports.look k).liveness ∧
      (t.ports.look k).watchAt = (s.ports.look k).watchAt) :
    overLate t k = overLate s k ∧ overLost t k = overLost s k ∧ verdict t k = verdict s k := by
  obtain ⟨now, late, lost⟩ := clock
  obtain ⟨liveness, watch⟩ := port
  have lates : overLate t k = overLate s k := by rw [overLate, overLate, pastLate, pastLate, watchTime, watchTime,
    now, late, liveness, watch]
  have losts : overLost t k = overLost s k := by rw [overLost, overLost, pastLost, pastLost, watchTime, watchTime,
    now, lost, liveness, watch]
  exact ⟨lates, losts, by rw [verdict, verdict, lates, losts, liveness]⟩

theorem clock_of_losesPort (h : LosesPort s t) :
    t.now = s.now ∧ t.lateMs = s.lateMs ∧ t.lostSeconds = s.lostSeconds := by
  obtain ⟨_, _, _, _, _, rfl⟩ := h
  exact ⟨rfl, rfl, rfl⟩

/-- R109: one port is judged against intervals of which the lost one is the longer. -/
theorem judgeLiveness_judged (c : CpId) (running : s.phase = .running) (order : s.lateMs ≤ s.lostSeconds * 1000) :
    Judged (fun k => decide (k = c) && overLate s k) (fun k => decide (k = c) && overLost s k)
      (livenessWith c (verdict s c) s) s (judgeLiveness c s) := by
  rw [judgeLiveness, portLate, portLost, lateIntervalDue_eq running]
  by_cases late : overLate s c = true
  · rw [if_pos late]
    have first := becomeLate_judged c s
    obtain ⟨clock, _, intervals⟩ := clock_of_losesPort first.frame
    obtain ⟨lateNow, watch⟩ := portGains_watch first.self
    have lost : lostIntervalDue (becomeLate c s) c = overLost s c := by
      have alive : (s.ports.look c).liveness = .live := by
        simp only [overLate, Bool.and_eq_true, decide_eq_true_iff] at late
        exact late.1
      rw [lostIntervalDue_eq ((phase_of_losesPort first.frame).trans running), overLost, overLost, pastLost, pastLost,
        watchTime, watchTime, lateNow, watch, clock, intervals, alive]
      rfl
    rw [lost]
    split_ifs with gone
    · refine (first.trans (becomeLost_judged c _)).congr (fun k => ?_) (fun k => ?_) fun k => ?_
      · by_cases own : k = c <;> simp [own, late]
      · by_cases own : k = c <;> simp [own, gone]
      · by_cases own : k = c
        · simp [livenessWith, own, verdict, gone]
        · simp [livenessWith, own, (portGains_watch (first.other c s own rfl)).1]
    · refine first.congr (fun k => ?_) (fun k => ?_) fun k => ?_
      · by_cases own : k = c <;> simp [own, late]
      · by_cases own : k = c <;> simp [own, gone]
      · simp [livenessWith, verdict, gone, late]
  · rw [if_neg late, lostIntervalDue_eq running]
    have pastLost_late (alive : (s.ports.look c).liveness = .live) : overLost s c = false := by
      simp only [overLate, alive, decide_true, Bool.true_and, pastLate, decide_eq_true_iff] at late
      simp only [overLost, pastLost, Bool.and_eq_false_imp, decide_eq_false_iff_not]
      intro _ past
      exact late ((Nat.mul_le_mul_right _ order).trans past)
    have lost : (decide ((s.ports.look c).liveness ≠ .live) && overLost s c) = overLost s c := by
      by_cases alive : (s.ports.look c).liveness = .live
      · simp [pastLost_late alive]
      · simp [alive]
    rw [lost]
    split_ifs with gone
    · refine (becomeLost_judged c s).congr (fun k => ?_) (fun k => ?_) fun k => ?_
      · by_cases own : k = c <;> simp [own, late]
      · by_cases own : k = c <;> simp [own, gone]
      · simp [livenessWith, verdict, gone]
    · refine (Judged.refl s).congr (fun k => ?_) (fun k => ?_) fun k => ?_
      · by_cases own : k = c <;> simp [own, late]
      · by_cases own : k = c <;> simp [own, gone]
      · by_cases own : k = c <;> simp [livenessWith, own, verdict, gone, late]

/-- R109: ports judged one after another. -/
theorem foldl_judgeLiveness {ports : List CpId} (distinct : ports.Nodup) (running : s.phase = .running)
    (order : s.lateMs ≤ s.lostSeconds * 1000) :
    Judged (fun k => decide (k ∈ ports) && overLate s k) (fun k => decide (k ∈ ports) && overLost s k)
      (fun k => if k ∈ ports then verdict s k else (s.ports.look k).liveness) s
      (ports.foldl (fun s k => judgeLiveness k s) s) := by
  induction ports generalizing s with
  | nil => exact (Judged.refl s).congr (fun _ => by simp) (fun _ => by simp) fun _ => by simp
  | cons c ports ih =>
    obtain ⟨apart, distinct⟩ := List.nodup_cons.mp distinct
    have first := judgeLiveness_judged c running order
    have same {k : CpId} (other : k ≠ c) :=
      judged_same (clock_of_losesPort first.frame) (portGains_watch (first.other c s other (by simp [other])))
    obtain ⟨_, lateMs, lostSeconds⟩ := clock_of_losesPort first.frame
    have rest := ih distinct ((phase_of_losesPort first.frame).trans running)
      (by rw [lateMs, lostSeconds]; exact order)
    refine (first.trans rest).congr (fun k => ?_) (fun k => ?_) fun k => ?_
    all_goals by_cases own : k = c
    · simp [own, apart]
    · simp [own, (same own).1]
    · simp [own, apart]
    · simp [own, (same own).2.1]
    · simp [own, apart, (portGains_watch first.self).1]
    · simp [own, (same own).2.2, (portGains_watch (first.other c s own (by simp [own]))).1]

/-- R109: every port judged. -/
theorem judgeEvery_judged (running : s.phase = .running) (order : s.lateMs ≤ s.lostSeconds * 1000) :
    Judged (overLate s) (overLost s) (verdict s) s ((List.finRange 3).foldl (fun s k => judgeLiveness k s) s) :=
  (foldl_judgeLiveness (List.nodup_finRange 3) running order).congr (fun k => by simp) (fun k => by simp)
    fun k => by simp

end

/-! ## SET WATCH (R109) -/

/-- A caller served, with new intervals in force. -/
def watched (s : State) (c : CpId) (tag : Byte) (late lost : Nat) : State :=
  { served s c 0x0C tag with lateMs := late, lostSeconds := lost }

section
variable (s : State) (c : CpId) (tag : Byte) (late lost : Nat)

theorem watched_self : (watched s c tag late lost).ports.look c = servedPort s c 0x0C tag (s.ports.look c) :=
  served_port s c 0x0C tag

theorem watched_other {k : CpId} (other : k ≠ c) : (watched s c tag late lost).ports.look k = s.ports.look k :=
  served_other 0x0C tag other

theorem watched_same : SameClaims s (watched s c tag late lost) := by
  obtain ⟨takes, counts, told⟩ := served_same s c 0x0C tag
  refine ⟨rfl, rfl, ⟨takes, fun form => ?_, told⟩, fun k => noticeSet_modPort rfl k .claimLost⟩
  exact countForm_congr rfl rfl (fun _ => rfl) (fun _ => id) (counts form)

theorem placeCompleted_claims (code : Byte) (r : Result) (payload : List Byte) :
    SameClaims s (placeCompleted c code tag r payload s) :=
  ⟨rfl, rfl, placeCompleted_same c code tag r payload s, fun k => noticeSet_modPort rfl k .claimLost⟩

/-- R105, R109: the caller's watch timer stands at 0, so it is never past an interval. -/
theorem caller_not_aged {ms : Nat} (positive : 0 < ms) :
    ¬ ms * Config.tickMs ≤ watchTime (watched s c tag late lost) c := by
  have now : watchTime (watched s c tag late lost) c = 0 := by
    rw [watchTime, watched_self]
    exact Nat.sub_self _
  rw [now, Config.tickMs]
  omega

theorem watchTime_other {k : CpId} (other : k ≠ c) :
    watchTime (watched s c tag late lost) k = s.now - (s.ports.look k).watchAt := by
  rw [watchTime, watched_other _ _ _ _ _ other]
  rfl

/-- R106, R109: which ports are past the new late interval. -/
theorem watched_overLate (positive : 0 < late) (k : CpId) : overLate (watched s c tag late lost) k =
    decide (k ≠ c ∧ (s.ports.look k).liveness = .live ∧ late * 768 ≤ s.now - (s.ports.look k).watchAt) := by
  have past : pastLate (watched s c tag late lost) k =
      decide (late * Config.tickMs ≤ watchTime (watched s c tag late lost) k) := rfl
  rw [overLate, past]
  by_cases own : k = c
  · subst own
    rw [decide_eq_false (caller_not_aged s k tag late lost positive), Bool.and_false, eq_comm, decide_eq_false_iff_not]
    exact fun other => other.1 rfl
  · rw [watchTime_other _ _ _ _ _ own, watched_other _ _ _ _ _ own, ← Bool.decide_and, decide_eq_decide]
    exact (and_iff_right own).symm

/-- R107, R109: which ports are past the new lost interval. -/
theorem watched_overLost (positive : 0 < lost) (k : CpId) : overLost (watched s c tag late lost) k =
    decide (k ≠ c ∧ (s.ports.look k).liveness ≠ .lost ∧
      lost * 1000 * 768 ≤ s.now - (s.ports.look k).watchAt) := by
  have past : pastLost (watched s c tag late lost) k =
      decide (lost * 1000 * Config.tickMs ≤ watchTime (watched s c tag late lost) k) := rfl
  rw [overLost, past]
  by_cases own : k = c
  · subst own
    rw [decide_eq_false (caller_not_aged s k tag late lost (by omega)), Bool.and_false, eq_comm,
      decide_eq_false_iff_not]
    exact fun other => other.1 rfl
  · rw [watchTime_other _ _ _ _ _ own, watched_other _ _ _ _ _ own, ← Bool.decide_and, decide_eq_decide]
    exact (and_iff_right own).symm

/-- R105: the caller stays LIVE. -/
theorem watched_verdict_self (lateOk : 0 < late) (lostOk : 0 < lost) :
    verdict (watched s c tag late lost) c = .live := by
  rw [verdict, watched_overLost _ _ _ _ _ lostOk, watched_overLate _ _ _ _ _ lateOk,
    decide_eq_false fun other => other.1 rfl, decide_eq_false fun other => other.1 rfl, watched_self]
  rfl

/-- R109: what each other port is judged to be. -/
theorem watched_verdict (lateOk : 0 < late) (lostOk : 0 < lost) {k : CpId} (other : k ≠ c) :
    verdict (watched s c tag late lost) k =
      if (s.ports.look k).liveness = .lost then .lost
      else if lost * 1000 * 768 ≤ s.now - (s.ports.look k).watchAt then .lost
      else if (s.ports.look k).liveness = .live ∧ late * 768 ≤ s.now - (s.ports.look k).watchAt then .late
      else (s.ports.look k).liveness := by
  rw [verdict, watched_overLost _ _ _ _ _ lostOk, watched_overLate _ _ _ _ _ lateOk, watched_other _ _ _ _ _ other]
  by_cases gone : (s.ports.look k).liveness = .lost
  · simp [gone]
  · simp [gone, other]

end

/-- What a command's effect leaves as `t`, seen from before and after the command: the flags are handed as they
were by the effect. -/
theorem faultHanded_answered {s v t u : State} {k : CpId} (h : FaultHanded v t k) (phase : v.phase = s.phase)
    (flags : v.flags = s.flags) (flagged : u.flags = t.flags)
    (mask : (v.ports.look k).faultMask = (s.ports.look k).faultMask)
    (before : noticeSet v k .fault = noticeSet s k .fault) (after : noticeSet u k .fault = noticeSet t k .fault) :
    FaultHanded s u k := by
  simpa only [FaultHanded, phase, flagSet, flags, flagged, mask, before, after] using h

/-- Settles O25: `judgeEvery_judged` on the served state with the new intervals. -/
theorem setWatchJudgesEveryPort : Obligations.SetWatchJudgesEveryPort := by
  intro c tag late lost s taken
  refine ⟨fun outside => ?_, fun range senior => ?_⟩
  · have refused : watchOk late.toNat lost.toNat = false :=
      Bool.eq_false_iff.mpr fun ok => outside ((watchOk_iff _ _).mp ok)
    exact next_refused taken .badArg (by rw [effectSetWatch, refused]; rfl)
  intro aged dead lately
  have lateOk : 0 < late.toNat := by omega
  have lostOk : 0 < lost.toNat := by omega
  have judged := judgeEvery_judged (s := watched s c tag late.toNat lost.toNat) taken.1 (by
    show late.toNat ≤ lost.toNat * 1000
    omega)
  have lates := watched_overLate s c tag late.toNat lost.toNat lateOk
  have losts : overLost (watched s c tag late.toNat lost.toNat) = dead :=
    funext (watched_overLost s c tag late.toNat lost.toNat lostOk)
  rw [losts] at judged
  have spares : dead c = false := decide_eq_false fun other => other.1 rfl
  have effect : effectSetWatch c late lost (served s c 0x0C tag) = answer [] ((List.finRange 3).foldl
      (fun s k => judgeLiveness k s) (watched s c tag late.toNat lost.toNat)) := by
    rw [effectSetWatch, (watchOk_iff _ _).mpr range, isSenior_served senior]
    rfl
  have same := watched_same s c tag late.toNat lost.toNat
  generalize (List.finRange 3).foldl (fun s k => judgeLiveness k s) (watched s c tag late.toNat lost.toNat) = t
    at judged effect
  obtain ⟨_, lateMs, lostSeconds⟩ := clock_of_losesPort judged.frame
  have placed := placeCompleted_claims t c tag 0x0C .ok []
  refine ⟨_, next_answered taken effect, ?_, lateMs, lostSeconds,
    ((judged.losses.after same rfl).before placed).lossesTaken, fun f => ?_, ?_, fun k other => ?_, fun k => ?_⟩
  · obtain ⟨h, k, g, p, v, rfl⟩ := judged.frame
    rfl
  · refine (judged.flags f).trans (or_congr Iff.rfl (exists_congr fun k => ?_))
    rw [lates, decide_eq_true_iff]
  · have gains := judged.ports c
    rw [spares, watched_verdict_self _ _ _ _ _ lateOk lostOk, watched_self] at gains
    exact placeCompleted_gains gains .ok []
  · have gains := judged.ports k
    have notices : Notice.fault :: lossNotices (dead k) =
        if dead k then [.fault, .claimLost, .withdrawn] else [.fault] := by
      cases dead k <;> rfl
    rw [watched_other _ _ _ _ _ other, watched_verdict _ _ _ _ _ lateOk lostOk other, notices] at gains
    rwa [placeCompleted_other _ _ _ _ other]
  · refine faultHanded_answered (judged.handed k) rfl rfl rfl ?_ ?_ ?_
    · by_cases own : k = c
      · rw [own, watched_self]
        rfl
      · rw [watched_other _ _ _ _ _ own]
    · exact noticeSet_modPort rfl k .fault
    · exact noticeSet_modPort rfl k .fault

end Sys2Proof.Machine.PortLiveness
end

section
/-! PROOFS. What the forms of the slots, the flags and the LOST ports speak of (R90, R107, R146, R158, R165), and
how an event keeps them: the primitives, and the events of the lanes. -/

namespace Sys2Proof.Machine.FormsKept

/-! ## The forms, and when they carry over -/

/-- From `s` to `t` the three forms are kept, each by itself. -/
structure KeepsForms (s t : State) : Prop where
  lost : LostForm s → LostForm t
  save : SaveForm s → SaveForm t
  conditions : ConditionForm s → ConditionForm t

/-- Condition flags and first-suspect record: flags stay set, and a condition that arises sets its flag. -/
structure FlagsFollow (s t : State) : Prop where
  flags : ∀ f, flagSet s f = true → flagSet t f = true
  crowding : ∀ l, (t.writers.look l).crowding ≠ .none →
    (s.writers.look l).crowding ≠ .none ∨ flagSet t (.crowded l) = true
  clocks : ∀ p, (t.saps.look p).present = false →
    (s.saps.look p).present = false ∨ flagSet t (.portClockLost p) = true
  suspect : t.firstSuspect.isSome = true → s.firstSuspect.isSome = true ∨ flagSet t .entryCheck = true

/-- Phase, save and slots are as they were. -/
structure SameSlots (s t : State) : Prop where
  phase : t.phase = s.phase
  saving : t.saving = s.saving
  store : t.store = s.store
  slots : ∀ c, (t.ports.look c).slot = (s.ports.look c).slot

/-- Claims, authors and liveness are as they were. -/
structure SameHolds (s t : State) : Prop where
  liveness : ∀ c, (t.ports.look c).liveness = (s.ports.look c).liveness
  holders : t.holders = s.holders
  authors : ∀ n, (t.tags.look n).author = (s.tags.look n).author

/-- An event that touches nothing the forms speak of, but for flags that it sets. -/
structure Calm (s t : State) : Prop where
  slots : SameSlots s t
  holds : SameHolds s t
  follow : FlagsFollow s t

/-- An event that leaves the slots, and keeps the other two forms. -/
structure Orderly (s t : State) : Prop where
  slots : SameSlots s t
  lost : LostForm s → LostForm t
  conditions : ConditionForm s → ConditionForm t

section
variable {s t u : State}

theorem FlagsFollow.conditionForm (h : FlagsFollow s t) (form : ConditionForm s) : ConditionForm t := by
  obtain ⟨crowded, lost, suspected⟩ := form
  refine ⟨fun l arisen => ?_, fun p arisen => ?_, fun arisen => ?_⟩
  · exact (h.crowding l arisen).elim (fun held => h.flags _ (crowded l held)) id
  · exact (h.clocks p arisen).elim (fun held => h.flags _ (lost p held)) id
  · exact (h.suspect arisen).elim (fun held => h.flags _ (suspected held)) id

theorem FlagsFollow.trans (h : FlagsFollow s t) (k : FlagsFollow t u) : FlagsFollow s u := by
  refine ⟨fun f => k.flags f ∘ h.flags f, fun l arisen => ?_, fun p arisen => ?_, fun arisen => ?_⟩
  · exact (k.crowding l arisen).elim (fun held => (h.crowding l held).imp_right (k.flags _)) .inr
  · exact (k.clocks p arisen).elim (fun held => (h.clocks p held).imp_right (k.flags _)) .inr
  · exact (k.suspect arisen).elim (fun held => (h.suspect held).imp_right (k.flags _)) .inr

/-- Conditions as they were; flags can be set. -/
theorem FlagsFollow.same (flags : ∀ f, flagSet s f = true → flagSet t f = true) (writers : t.writers = s.writers)
    (saps : t.saps = s.saps) (suspect : t.firstSuspect = s.firstSuspect) : FlagsFollow s t :=
  ⟨flags, fun _ arisen => .inl (writers ▸ arisen), fun _ arisen => .inl (saps ▸ arisen),
    fun arisen => .inl (suspect ▸ arisen)⟩

theorem SameSlots.saveForm (h : SameSlots s t) (form : SaveForm s) : SaveForm t := by
  unfold SaveForm at form ⊢
  simpa only [h.phase, h.saving, h.store, h.slots] using form

theorem SameSlots.trans (h : SameSlots s t) (k : SameSlots t u) : SameSlots s u :=
  ⟨k.phase.trans h.phase, k.saving.trans h.saving, k.store.trans h.store, fun c => (k.slots c).trans (h.slots c)⟩

theorem SameHolds.lostForm (h : SameHolds s t) (form : LostForm s) : LostForm t := by
  unfold LostForm at form ⊢
  simpa only [h.liveness, h.holders, h.authors] using form

theorem SameHolds.trans (h : SameHolds s t) (k : SameHolds t u) : SameHolds s u :=
  ⟨fun c => (k.liveness c).trans (h.liveness c), k.holders.trans h.holders,
    fun n => (k.authors n).trans (h.authors n)⟩

theorem Orderly.keeps (h : Orderly s t) : KeepsForms s t := ⟨h.lost, h.slots.saveForm, h.conditions⟩

theorem Orderly.trans (h : Orderly s t) (k : Orderly t u) : Orderly s u :=
  ⟨h.slots.trans k.slots, k.lost ∘ h.lost, k.conditions ∘ h.conditions⟩

theorem Calm.orderly (h : Calm s t) : Orderly s t := ⟨h.slots, h.holds.lostForm, h.follow.conditionForm⟩

theorem Calm.trans (h : Calm s t) (k : Calm t u) : Calm s u :=
  ⟨h.slots.trans k.slots, h.holds.trans k.holds, h.follow.trans k.follow⟩

/-- The blocks beside the control ports and the flags that the forms speak of. -/
def beside (s : State) : Option Save × StoreContent × Table (Option CpId) 264 × Table TagRecord 64 ×
    Table Writer 8 × Table Sap 4 × Option DestId :=
  (s.saving, s.store, s.holders, s.tags, s.writers, s.saps, s.firstSuspect)

/-- Ports are told and flags are set; the other blocks that the forms speak of are as they were. -/
theorem Calm.told {may : List Notice} (h : Tells may s t) (rest : beside t = beside s) : Calm s t := by
  obtain ⟨⟨flags, ports⟩, phase⟩ := h
  simp only [beside, Prod.mk.injEq] at rest
  obtain ⟨saving, store, holders, tags, writers, saps, suspect⟩ := rest
  refine ⟨⟨phase, saving, store, fun c => ?_⟩, ⟨fun c => ?_, holders, fun n => by rw [tags]⟩,
    .same flags writers saps suspect⟩
  all_goals rw [(ports c).1.1]

/-- Every block that the forms speak of is as it was. -/
theorem Calm.same (ports : t.ports = s.ports) (flags : t.flags = s.flags) (phase : t.phase = s.phase)
    (rest : beside t = beside s) : Calm s t := .told (Tells.same [] flags ports phase) rest

/-- The forms do not speak of the entries. -/
theorem Calm.entries (s : State) (e : Table Entry 256) : Calm s { s with entries := e } := .same rfl rfl rfl rfl

theorem Calm.refl (s : State) : Calm s s := .same rfl rfl rfl rfl

theorem Calm.foldl {α : Type} (f : State → α → State) (h : ∀ s a, Calm s (f s a)) (l : List α) (s : State) :
    Calm s (l.foldl f s) :=
  foldl_relates _ Calm.refl (fun _ _ _ => .trans) f h l s

end

/-! ## The primitives -/

section
variable (s : State)

theorem modLane_calm (l : LaneId) (f : Lane → Lane) : Calm s (modLane l f s) := .same rfl rfl rfl rfl

theorem modReader_calm (l : LaneId) (f : Reader → Reader) : Calm s (modReader l f s) := .same rfl rfl rfl rfl

theorem modTake_calm (l : LaneId) (f : TakeUnit → TakeUnit) : Calm s (modTake l f s) := .same rfl rfl rfl rfl

theorem modEntry_calm (d : DestId) (f : Entry → Entry) : Calm s (modEntry d f s) := .same rfl rfl rfl rfl

theorem modWriter_slots (l : LaneId) (f : Writer → Writer) : SameSlots s (modWriter l f s) :=
  ⟨rfl, rfl, rfl, fun _ => rfl⟩

theorem modWriter_holds (l : LaneId) (f : Writer → Writer) : SameHolds s (modWriter l f s) :=
  ⟨fun _ => rfl, rfl, fun _ => rfl⟩

theorem modSap_slots (p : SapId) (f : Sap → Sap) : SameSlots s (modSap p f s) := ⟨rfl, rfl, rfl, fun _ => rfl⟩

theorem modSap_holds (p : SapId) (f : Sap → Sap) : SameHolds s (modSap p f s) := ⟨fun _ => rfl, rfl, fun _ => rfl⟩

/-- A writer that does not become CROWDED. -/
theorem modWriter_calm {l : LaneId} {f : Writer → Writer}
    (quiet : (f (s.writers.look l)).crowding ≠ .none → (s.writers.look l).crowding ≠ .none) :
    Calm s (modWriter l f s) := by
  refine ⟨modWriter_slots s l f, modWriter_holds s l f, fun _ => id, fun k arisen => .inl ?_, fun _ => .inl, .inl⟩
  rw [modWriter_look] at arisen
  split at arisen
  · rename_i own
    subst own
    exact quiet arisen
  · exact arisen

/-- A change of a writer that is none of its crowding. -/
theorem modWriter_uncrowded (l : LaneId) {f : Writer → Writer} (same : ∀ w, (f w).crowding = w.crowding) :
    Calm s (modWriter l f s) := modWriter_calm s fun held => same _ ▸ held

/-- The cell line position is no crowding. -/
theorem modWriter_position_calm (l : LaneId) (n : Writer → Nat) :
    Calm s (modWriter l (fun w => { w with linePos := n w }) s) := modWriter_uncrowded s l fun _ => rfl

/-- An audio port that does not lose its word clock. -/
theorem modSap_calm {p : SapId} {f : Sap → Sap}
    (quiet : (f (s.saps.look p)).present = false → (s.saps.look p).present = false) : Calm s (modSap p f s) := by
  refine ⟨modSap_slots s p f, modSap_holds s p f, fun _ => id, fun _ => .inl, fun q arisen => .inl ?_, .inl⟩
  rw [modSap_look] at arisen
  split at arisen
  · rename_i own
    subst own
    exact quiet arisen
  · exact arisen

/-- A change of an audio port that is none of its word clock's presence. -/
theorem modSap_clock_calm (p : SapId) {f : Sap → Sap} (same : ∀ q, (f q).present = q.present) :
    Calm s (modSap p f s) := modSap_calm s fun lost => same _ ▸ lost

/-- A record that keeps its author. -/
theorem modTag_calm {n : TagId} {f : TagRecord → TagRecord}
    (same : (f (s.tags.look n)).author = (s.tags.look n).author) : Calm s (modTag n f s) := by
  refine ⟨⟨rfl, rfl, rfl, fun _ => rfl⟩, ⟨fun _ => rfl, rfl, fun m => ?_⟩, .same (fun _ => id) rfl rfl rfl⟩
  rw [modTag_look]
  split
  · rename_i own
    subst own
    exact same
  · rfl

theorem setFlag_calm (f : FaultFlag) : Calm s (setFlag f s) := by
  refine .told (setFlag_tells [] f s) ?_
  obtain ⟨v, p, h⟩ := setFlag_frame f s
  rw [h]
  rfl

/-- R156: where a condition arises with its flag set in the same event. -/
theorem setFlag_follow {u : State} {f : FaultFlag} (flags : u.flags = s.flags)
    (crowding : ∀ l, (u.writers.look l).crowding ≠ .none →
      (s.writers.look l).crowding ≠ .none ∨ f = .crowded l)
    (clocks : ∀ p, (u.saps.look p).present = false →
      (s.saps.look p).present = false ∨ f = .portClockLost p)
    (suspect : u.firstSuspect = s.firstSuspect) : FlagsFollow s (setFlag f u) := by
  have set (g : FaultFlag) : flagSet (setFlag f u) g = (flagSet s g || decide (g = f)) := by
    rw [flagSet_setFlag, flagSet, flags, flagSet]
  obtain ⟨v, p, frame⟩ := setFlag_frame f u
  refine ⟨fun g held => by simp [set, held], fun l arisen => ?_, fun p arisen => ?_, fun arisen => .inl ?_⟩
  · rw [frame] at arisen
    refine (crowding l arisen).imp_right fun own => ?_
    rw [set, own, decide_eq_true rfl, Bool.or_true]
  · rw [frame] at arisen
    refine (clocks p arisen).imp_right fun own => ?_
    rw [set, own, decide_eq_true rfl, Bool.or_true]
  · rw [frame] at arisen
    exact suspect ▸ arisen

theorem setNotice_calm (c : CpId) {n : Notice} (other : n ≠ .fault) : Calm s (setNotice c n s) :=
  .told (setNotice_tells [n] c n s (List.mem_singleton.mpr rfl) other) rfl

theorem laneNotice_calm (l : LaneId) : Calm s (laneNotice l s) := by
  refine .told (laneNotice_tells l s) ?_
  obtain ⟨p, h⟩ := laneNotice_frame l s
  rw [h]
  rfl

/-- A change of a port that leaves its liveness. -/
theorem modPort_holds {c : CpId} {f : CtrlPort → CtrlPort}
    (liveness : (f (s.ports.look c)).liveness = (s.ports.look c).liveness) : SameHolds s (modPort c f s) := by
  refine ⟨fun k => ?_, rfl, fun _ => rfl⟩
  rw [modPort_look]
  split
  · rename_i own
    subst own
    exact liveness
  · rfl

/-- Notices, masks, marks and transactions of a port are no slot and no liveness. -/
theorem modPort_calm {c : CpId} {f : CtrlPort → CtrlPort} (slot : (f (s.ports.look c)).slot = (s.ports.look c).slot)
    (liveness : (f (s.ports.look c)).liveness = (s.ports.look c).liveness) : Calm s (modPort c f s) := by
  refine ⟨⟨rfl, rfl, rfl, fun k => ?_⟩, modPort_holds s liveness, .same (fun _ => id) rfl rfl rfl⟩
  rw [modPort_look]
  split
  · rename_i own
    subst own
    exact slot
  · rfl

theorem writesRings_calm {t : State} (h : WritesRings s t) : Calm s t := by
  obtain ⟨m, w, rfl⟩ := h
  exact .same rfl rfl rfl rfl

theorem countUp_calm (r : TagRef) : Calm s (countUp r s) := by
  unfold countUp
  split
  · exact modTag_calm s rfl
  · exact .refl s

theorem countDown_calm (r : TagRef) : Calm s (countDown r s) := by
  unfold countDown
  split
  · exact modTag_calm s rfl
  · exact .refl s

theorem endChanges_calm (cs : List Change) : Calm s (endChanges cs s) :=
  .foldl (fun s x => endChange x s) (fun s _ => countDown_calm s _) cs s

theorem moveCount_calm (old new : TagRef) : Calm s (moveCount old new s) :=
  ite_relates _ _ _ _ _ (.refl s) ((countDown_calm s old).trans (countUp_calm _ new))

end

/-! ## The sample path -/

section
variable (s : State)

theorem silentAdvance_calm (n : Nat) (d : DestId) : Calm s (silentAdvance n d s) := by
  refine .told (silentAdvance_tells n d s) ?_
  obtain ⟨e, v, p, h⟩ := silentAdvance_frame n d s
  rw [h]
  rfl

theorem readDests_calm (ds : List DestId) : Calm s (readDests ds s).2 := by
  refine .told (readDests_tells ds s) ?_
  obtain ⟨e, v, p, h⟩ := readDests_frame ds s
  rw [h]
  rfl

end

/-! ## Sound cells and lines -/

section
variable (s : State)

theorem soundCell_calm (l : LaneId) (words : List LaneWord) : Calm s (soundCell l words s) := by
  unfold soundCell
  refine ite_relates _ _ _ _ _ ?_ (.refl s)
  split
  · exact .refl s
  · exact .refl s
  · exact (modReader_calm s l _).trans (setFlag_calm _ _)
  · rename_i c _
    obtain ⟨r, m, i, h⟩ := takeCell_frame l c s
    rw [h]
    exact .same rfl rfl rfl rfl

theorem emitSet_calm (l : LaneId) (g : GroupId) : Calm s (emitSet l g s).2 := by
  unfold emitSet
  split
  · exact .refl s
  · exact (readDests_calm s (groupDests l g)).trans (modWriter_uncrowded _ l fun _ => rfl)

theorem emitSets_calm (l : LaneId) (g : GroupId) (n : Nat) : Calm s (emitSets l g n s).2 := by
  induction n generalizing s with
  | zero => exact .refl s
  | succ n ih => exact (emitSet_calm s l g).trans (ih _)

theorem modGroup_calm (l : LaneId) (g : GroupId) (f : GroupWrite → GroupWrite) :
    Calm s (modWriter l (Writer.modGroup g f) s) := modWriter_uncrowded s l fun _ => rfl

theorem emitCell_calm (l : LaneId) (c : FormatClass) (i : Nat) (g : GroupId) : Calm s (emitCell l c i g s).2 :=
  (emitSets_calm s l g (cellSets c i)).trans (modGroup_calm _ l g _)

theorem emitCells_calm (l : LaneId) (c : FormatClass) (i : Nat) (gs : List GroupId) :
    Calm s (emitCells l c i gs s).2 := by
  induction gs generalizing s with
  | nil => exact .refl s
  | cons g gs ih => exact (emitCell_calm s l c i g).trans (ih _)

/-- R47, R156: the lane becomes CROWDED and its flag is set. -/
theorem crowd_calm (l : LaneId) : Calm s (crowd l s) := by
  unfold crowd
  dsimp only
  split
  · have set := setFlag_calm (modWriter l (fun w => { w with crowding := .thisFrame }) s) (.crowded l)
    refine ⟨(modWriter_slots s l _).trans set.slots, (modWriter_holds s l _).trans set.holds,
      setFlag_follow s rfl (fun k arisen => ?_) (fun _ => .inl) rfl⟩
    by_cases own : l = k
    · exact .inr (own ▸ rfl)
    · rw [modWriter_look_ne _ _ own] at arisen
      exact .inl arisen
  · rename_i already
    exact modWriter_calm s fun _ => already

theorem putLine_calm (l : LaneId) (line : FeedLine) : Calm s (putLine l line s) := by
  have carry : Calm s (carryLine l line s) := modLane_calm s l _
  have build (c : FormatClass) : Calm s (buildLine l c line s) := by
    have emitted := emitCells_calm s l c (s.writers.look l).linePos
      (planLine c (s.lanes.look l).plan (s.readers.look l).handed).emitted
    unfold buildLine
    exact (ite_relates _ _ _ _ _ (emitted.trans (crowd_calm _ l)) emitted).trans (modLane_calm _ l _)
  unfold putLine
  split
  · exact ite_relates _ _ _ _ _ (build _) carry
  · exact carry

theorem countLine_calm (l : LaneId) : Calm s (countLine l s) :=
  ((modReader_calm s l _).trans (modLane_calm _ l _)).trans (modWriter_uncrowded _ l fun _ => rfl)

theorem cellLine_calm (l : LaneId) (line : FeedLine) : Calm s (cellLine l line s) := by
  unfold cellLine
  split
  · exact .refl s
  · exact modLane_calm s l _
  · exact ite_relates _ _ _ _ _ ((putLine_calm s l line).trans (countLine_calm _ l)) (modLane_calm s l _)

end

/-! ## Lane states -/

section
variable (s : State)

/-- R129. -/
theorem flush_calm (l : LaneId) : Calm s (flush l s) := by
  unfold flush
  exact ((modTake_calm s l _).trans (endChanges_calm _ _)).trans
    (.foldl (fun s c => setNotice c .cancelled s) (fun s c => setNotice_calm s c (by decide)) _ _)

/-- R14. -/
theorem enterParked_calm (l : LaneId) (cause : ParkCause) : Calm s (enterParked l cause s) := by
  have parked (f : Lane → Lane) : Calm s (modTake l (fun t => { t with holdPark := true }) (modLane l f s)) :=
    (modLane_calm s l f).trans (modTake_calm _ l _)
  unfold enterParked
  exact (ite_relates _ _ _ _ _ ((parked _).trans (flush_calm _ l)) (parked _)).trans (laneNotice_calm _ l)

/-- R16. -/
theorem leaveParked_calm (l : LaneId) : Calm s (leaveParked l s) := (modLane_calm s l _).trans (modTake_calm _ l _)

/-- R10, R13, R15. -/
theorem enterRun_calm (l : LaneId) (c : FormatClass) : Calm s (enterRun l c s) := by
  have left : Calm s (if (s.lanes.look l).state = .parked then leaveParked l s else s) :=
    ite_relates _ _ _ _ _ (leaveParked_calm s l) (.refl s)
  unfold enterRun
  exact (left.trans (modLane_calm _ l _)).trans (laneNotice_calm _ l)

/-- R12: a lane that leaves RUN is not CROWDED. -/
theorem departRun_calm (l : LaneId) : Calm s (departRun l s) :=
  (modReader_calm s l _).trans (modWriter_calm _ fun held => absurd rfl held)

/-- R11. -/
theorem loseLock_calm (l : LaneId) : Calm s (loseLock l s) := by
  have departed : Calm s (setFlag (.lockLost l) (departRun l s)) := (departRun_calm s l).trans (setFlag_calm _ _)
  unfold loseLock
  exact ite_relates _ _ _ _ _ (departed.trans (enterParked_calm _ l _))
    ((departed.trans (modLane_calm _ l _)).trans (laneNotice_calm _ l))

/-- R10, R13. -/
theorem formatChange_calm (l : LaneId) : Calm s (formatChange l s) :=
  (setFlag_calm s _).trans (enterParked_calm _ l _)

/-- R8, R13, R15. -/
theorem laneWork_calm (l : LaneId) : Calm s (laneWork l s) := by
  unfold laneWork
  split
  · exact ite_relates _ _ _ _ _ (enterParked_calm s l _) (modLane_calm s l _)
  · unfold parkedWork
    dsimp only
    split
    · exact ite_relates _ _ _ _ _ (enterRun_calm s l _) (modLane_calm s l _)
    · exact modLane_calm s l _
  · exact .refl s

end

/-! ## Frames of a lane -/

section
variable (s : State)

/-- R31, R50. -/
theorem closeFrame_calm (l : LaneId) : Calm s (closeFrame l s) := by
  have padded := writesRings_calm s (settleTracks_frame l (List.finRange 24) s)
  have settle : Calm s (settleFrame l s) := by
    unfold settleFrame
    exact (ite_relates _ _ _ _ _ (padded.trans (setFlag_calm _ _)) padded).trans (modReader_calm _ l _)
  have complete (u : State) : Calm u (completeFrame l u) := by
    unfold completeFrame
    exact (Calm.foldl _ (fun s t => silentAdvance_calm s _ _) _ u).trans (modWriter_uncrowded _ l fun _ => rfl)
  exact settle.trans (complete _)

/-- R47: a frame start raises no crowding. -/
theorem closeCrowding_calm (l : LaneId) : Calm s (closeCrowding l s) := by
  refine ite_relates _ _ _ _ _ (modWriter_calm s fun closed held => closed ?_) (.refl s)
  show (s.writers.look l).crowding.frameClosed = .none
  rw [held]
  rfl

theorem latchTags_calm (view : State) (l : LaneId) : Calm s (latchTags view l s) :=
  modWriter_uncrowded s l fun _ => rfl

/-- R8: a frame start, whole. -/
theorem frameStart_calm (l : LaneId) : Calm s (frameStart l s) := by
  have evaluate (u : State) : Calm u (evaluateFrame l u) := modReader_calm u l _
  have work : Calm s (frameWork l s) := by
    unfold frameWork
    exact (((closeFrame_calm s l).trans (evaluate _)).trans (latchTags_calm _ _ l)).trans (closeCrowding_calm _ l)
  unfold frameStart
  exact ((work.trans (laneWork_calm _ l)).trans (modLane_calm _ l _)).trans (modTake_calm _ l _)

theorem runAtInput_calm (l : LaneId) (c : FormatClass) : Calm s (runAtInput l c s) := by
  have entered := enterRun_calm s l c
  unfold runAtInput
  exact ite_relates _ _ _ _ _ (entered.trans (frameStart_calm _ l)) (entered.trans (modLane_calm _ l _))

theorem inputInRun_calm (l : LaneId) (d : Detector) (lost : Bool) : Calm s (inputInRun l d lost s) := by
  have opened : Calm s (if opensFrame s l then frameStart l s else s) :=
    ite_relates _ _ _ _ _ (frameStart_calm s l) (.refl s)
  have judged : Calm s (modLane l (fun n => { n with detector := d })
      (if opensFrame s l then frameStart l s else s)) := opened.trans (modLane_calm _ l _)
  unfold inputInRun
  exact ite_relates _ _ _ _ _ (judged.trans (loseLock_calm _ l))
    (ite_relates _ _ _ _ _ judged (judged.trans (modLane_calm _ l _)))

theorem inputInSeek_calm (l : LaneId) (d : Detector) : Calm s (inputInSeek l d s) := by
  unfold inputInSeek
  split
  · exact ite_relates _ _ _ _ _ (runAtInput_calm s l _) (formatChange_calm s l)
  · exact .refl s

theorem inputInCoast_calm (l : LaneId) (d : Detector) : Calm s (inputInCoast l d s) := by
  unfold inputInCoast
  split
  · exact ite_relates _ _ _ _ _ (runAtInput_calm s l _) (formatChange_calm s l)
  · exact .refl s

theorem beginInput_calm (l : LaneId) : Calm s (beginInput l s) :=
  ((modReader_calm s l _).trans (modWriter_position_calm _ l fun _ => 0)).trans (modLane_calm _ l _)

theorem inputFrameStart_calm (l : LaneId) : Calm s (inputFrameStart l s) := by
  have judged (d : Detector) : Calm s (modLane l (fun n => { n with detector := d }) s) := modLane_calm s l _
  unfold inputFrameStart
  dsimp only
  refine ite_relates _ _ _ _ _ (Calm.trans ?_ (beginInput_calm _ l)) (.refl s)
  split
  · exact inputInRun_calm s l _ _
  · exact (judged _).trans (inputInSeek_calm _ l _)
  · exact (judged _).trans (inputInCoast_calm _ l _)
  · exact judged _

theorem lateFrameStart_calm (l : LaneId) : Calm s (lateFrameStart l s) := by
  unfold lateFrameStart
  exact ite_relates _ _ _ _ _
    (ite_relates _ _ _ _ _ (((frameStart_calm s l).trans (modLane_calm _ l _)).trans (loseLock_calm _ l))
      (modLane_calm s l _)) (.refl s)

end

/-! ## Applications (R82 to R86, R120, R122) -/

section
variable (s : State)

theorem applyChange_calm (x : Change) : Calm s (applyChange x s) :=
  (modEntry_calm s x.dest _).trans (moveCount_calm _ _ _)

theorem applyChanges_calm (cs : List Change) : Calm s (applyChanges cs s) :=
  .foldl _ (fun s x => (applyChange_calm s x).trans (countDown_calm _ _)) cs s

theorem applyHead_calm (l : LaneId) : Calm s (applyHead l s) := by
  unfold applyHead
  split
  · exact .refl s
  · exact ((applyChanges_calm s _).trans (modTake_calm _ l _)).trans (setNotice_calm _ _ (by decide))

theorem takeTimerWork_calm (l : LaneId) : Calm s (takeTimerWork l s) := by
  unfold takeTimerWork
  dsimp only
  split_ifs
  · exact modTake_calm s l _
  · exact .refl s
  · split
    · exact .refl s
    · exact applyHead_calm s l
    · exact modTake_calm s l _

theorem applyNudges_calm (l : LaneId) : Calm s (applyNudges l s) := .entries s _

theorem switchPoint_calm (l : LaneId) : Calm s (switchPoint l s) := by
  have moved : Calm s (applyNudges l (modLane l Lane.planCurrent s)) :=
    (modLane_calm s l _).trans (applyNudges_calm _ l)
  unfold switchPoint
  exact ite_relates _ _ _ _ _
    ((ite_relates _ _ _ _ _ (moved.trans (takeTimerWork_calm _ l)) moved).trans (modLane_calm _ l _)) (.refl s)

theorem take_calm (l : LaneId) : Calm s (take l s) :=
  ite_relates _ _ _ _ _ ((modLane_calm s l _).trans (applyHead_calm _ l)) (.refl s)

end

/-! ## Audio ports (R63, R64, R65, R156) -/

section
variable (s : State)

theorem readSlots_calm (p : SapId) : Calm s (readSlots p s) := by
  unfold readSlots
  exact (readDests_calm s (portDests p)).trans (modSap_clock_calm _ p fun _ => rfl)

theorem portWork_calm (p : SapId) (xs : Option (Table Sample 16)) (readFirst : Bool) :
    Calm s (portWork p xs readFirst s) := by
  have write (xs : Table Sample 16) (u : State) : Calm u (writeSlots p xs u) :=
    writesRings_calm u (writeSlots_frame p xs u)
  match xs, readFirst with
  | none, false => exact readSlots_calm s p
  | none, true => exact readSlots_calm s p
  | some xs, false => exact (write xs s).trans (readSlots_calm _ p)
  | some xs, true => exact (readSlots_calm s p).trans (write xs _)

theorem regainPort_calm (p : SapId) (readFirst : Bool) : Calm s (regainPort p readFirst s) := by
  unfold regainPort
  refine Calm.trans (modSap_calm s fun lost => ?_) (portWork_calm _ p none readFirst)
  cases lost

/-- The work of a port whose word clock's presence stays. -/
theorem portWork_modSap_calm {p : SapId} {f : Sap → Sap} (same : ∀ q, (f q).present = q.present)
    (xs : Option (Table Sample 16)) (readFirst : Bool) : Calm s (portWork p xs readFirst (modSap p f s)) :=
  (modSap_clock_calm s p same).trans (portWork_calm _ p xs readFirst)

theorem wordClockFrameStart_calm (p : SapId) (xs : Table Sample 16) (readFirst : Bool) :
    Calm s (wordClockFrameStart p xs readFirst s) := by
  have present : Calm s (presentFrameStart p xs readFirst s) := by
    exact portWork_modSap_calm s (f := fun q => { q with frameOpen := true, clockAt := s.now }) (fun _ => rfl) _
      readFirst
  have lost : Calm s (lostFrameStart p readFirst s) := by
    unfold lostFrameStart
    refine ite_relates _ _ _ _ _ (regainPort_calm s p readFirst) ?_
    exact modSap_clock_calm s p fun _ => rfl
  exact ite_relates _ _ _ _ _ (ite_relates _ _ _ _ _ present lost) (.refl s)

theorem portRegain_calm (p : SapId) : Calm s (portRegain p s) :=
  ite_relates _ _ _ _ _ (regainPort_calm s p false) (.refl s)

theorem portClockLost_calm (p : SapId) : Calm s (portClockLost p s) := by
  unfold portClockLost
  split
  · have set := setFlag_calm (modSap p (fun q => { q with
        present := false
        regain := 0
        frameOpen := false
        timerAt := q.clockAt + Config.clockLoss
        output := Table.fill 16 0 }) s) (.portClockLost p)
    refine ⟨(modSap_slots s p _).trans set.slots, (modSap_holds s p _).trans set.holds,
      setFlag_follow s rfl (fun _ => .inl) (fun q arisen => ?_) rfl⟩
    by_cases own : p = q
    · exact .inr (own ▸ rfl)
    · rw [modSap_look_ne _ _ own] at arisen
      exact .inl arisen
  · exact .refl s

theorem internalTimerPeriod_calm (p : SapId) (readFirst : Bool) : Calm s (internalTimerPeriod p readFirst s) :=
  ite_relates _ _ _ _ _ (portWork_modSap_calm s (f := fun q => { q with timerAt := q.timerAt + Config.wordPeriod })
    (fun _ => rfl) _ readFirst) (.refl s)

end

/-! ## The patch table's own events (R79, R87, R90) -/

section
variable (s : State)

/-- R90: a first suspect is recorded with ENTRY_CHECK set. -/
theorem visitEntry_calm (d : DestId) : Calm s (visitEntry d s) := by
  unfold visitEntry
  dsimp only
  split
  · have marked := (modEntry_calm s d Entry.suspected).trans (setFlag_calm _ .entryCheck)
    refine ⟨⟨marked.slots.phase, marked.slots.saving, marked.slots.store, marked.slots.slots⟩,
      ⟨marked.holds.liveness, marked.holds.holders, marked.holds.authors⟩,
      marked.follow.flags, marked.follow.crowding, marked.follow.clocks, fun _ => .inr ?_⟩
    exact (flagSet_setFlag .entryCheck .entryCheck _).trans (by simp)
  · exact .refl s

theorem scrubVisit_calm : Calm s (scrubVisit s) :=
  ite_relates _ _ _ _ _ ((visitEntry_calm s _).trans (.same rfl rfl rfl rfl)) (.refl s)

theorem entryUpset_calm (d : DestId) (u : Upset) : Calm s (entryUpset d u s) :=
  ite_relates _ _ _ _ _ (modEntry_calm s d _) (.refl s)

end

end Sys2Proof.Machine.FormsKept
end

section
/-! PROOFS. Every step keeps the forms of the slots, the flags and the LOST ports (R90, R107, R146, R158, R165): the
resets, saves and start-up, the flags, the claims, and then each command. -/

namespace Sys2Proof.Machine.FormsKept

open PortLiveness ClaimMoves ClaimRanges

/-! ## Composition -/

section
variable {s t u : State}

theorem KeepsForms.refl (s : State) : KeepsForms s s := ⟨id, id, id⟩

theorem KeepsForms.trans (h : KeepsForms s t) (k : KeepsForms t u) : KeepsForms s u :=
  ⟨k.lost ∘ h.lost, k.save ∘ h.save, k.conditions ∘ h.conditions⟩

theorem Calm.keeps (h : Calm s t) : KeepsForms s t := h.orderly.keeps

theorem Orderly.refl (s : State) : Orderly s s := (Calm.refl s).orderly

theorem Orderly.foldl {α : Type} (f : State → α → State) (h : ∀ s a, Orderly s (f s a)) (l : List α)
    (s : State) : Orderly s (l.foldl f s) :=
  foldl_relates _ Orderly.refl (fun _ _ _ => .trans) f h l s

/-- A change of the control ports alone that leaves slots and liveness. -/
theorem Calm.ports (s : State) {p : Table CtrlPort 3} (slots : ∀ c, (p.look c).slot = (s.ports.look c).slot)
    (liveness : ∀ c, (p.look c).liveness = (s.ports.look c).liveness) : Calm s { s with ports := p } :=
  ⟨⟨rfl, rfl, rfl, slots⟩, ⟨liveness, rfl, fun _ => rfl⟩, .same (fun _ => id) rfl rfl rfl⟩

/-- Where no save is in progress, no slot is EXECUTING. -/
theorem saveForm_of_none (none : s.saving = none) :
    SaveForm s ↔ ∀ c, (s.ports.look c).slot.isExecuting = false := by
  simp [SaveForm, none]

/-- Outside RUNNING no save is in progress and no slot EXECUTING. -/
theorem SaveForm.idle (form : SaveForm s) (stopped : s.phase ≠ .running) :
    s.saving = none ∧ ∀ c, (s.ports.look c).slot.isExecuting = false := by
  have idle : s.saving = none := by
    by_contra busy
    exact stopped (form.2 (Option.isSome_iff_ne_none.mpr busy)).2
  exact ⟨idle, (saveForm_of_none idle).mp form⟩

/-- Where no port is LOST. -/
theorem lostForm_of_unlost (unlost : ∀ c, (s.ports.look c).liveness ≠ .lost) : LostForm s :=
  fun c lost => absurd lost (unlost c)

/-- A LOST port gains no claim and no record. -/
theorem lostForm_of_fewer (liveness : ∀ k, (t.ports.look k).liveness = .lost → (s.ports.look k).liveness = .lost)
    (holders : ∀ i k, (s.ports.look k).liveness = .lost → t.holders.look i = some k → s.holders.look i = some k)
    (authors : ∀ n k, (s.ports.look k).liveness = .lost → (t.tags.look n).author = some k →
      (s.tags.look n).author = some k) (form : LostForm s) : LostForm t := by
  intro k lost
  have before := liveness k lost
  obtain ⟨unheld, unauthored⟩ := form k before
  exact ⟨fun i held => unheld i (holders i k before held), fun n author => unauthored n (authors n k before author)⟩

end

/-! ## Resets (R169) -/

section
variable (s : State) (pending : List Instr) (now choices : Nat) (phase : Phase) (low : Bool) (senior : Option CpId)
  (store : StoreContent)

theorem blockReset_saveForm : SaveForm (State.blockReset pending now choices phase low senior store) := by
  refine (saveForm_of_none rfl).mpr fun c => ?_
  simp [State.blockReset, portAtReset, Slot.isExecuting]

/-- At the reset no port is LOST, no slot EXECUTING, no save in progress and no condition holds. -/
theorem blockReset_keeps : KeepsForms s (State.blockReset pending now choices phase low senior store) := by
  refine ⟨fun _ => lostForm_of_unlost fun c => ?_, fun _ => blockReset_saveForm _ _ _ _ _ _ _, fun _ => ?_⟩
  · simp [State.blockReset, portAtReset]
  · simp [ConditionForm, State.blockReset, writerAtReset, sapAtReset]

end

section
variable (s : State)

/-- The level of RESET_N. -/
theorem resetPin_keeps (low : Bool) : KeepsForms s { s with resetLow := low } :=
  Calm.keeps (.same rfl rfl rfl rfl)

theorem powerUp_keeps (straps : BitVec 2) : KeepsForms s (powerUp straps s) :=
  ite_relates _ _ _ _ _ (blockReset_keeps s _ _ _ _ _ _ _) (blockReset_keeps s _ _ _ _ _ _ _)

theorem resetNLow_keeps : KeepsForms s (resetNLow s) :=
  ite_relates _ _ _ _ _ (resetPin_keeps s true) (blockReset_keeps s _ _ _ _ _ _ _)

theorem resetNRelease_keeps (straps : BitVec 2) : KeepsForms s (resetNRelease straps s) :=
  ite_relates _ _ _ _ _ (blockReset_keeps s _ _ _ _ _ _ _) (resetPin_keeps s false)

/-- R171: what chip select has fixed is no slot. -/
theorem restartFull_calm (straps : BitVec 2) : Calm (startUp straps s) (restartFull straps s) := by
  refine Calm.ports _ (fun c => ?_) fun c => ?_
  all_goals rw [Table.look_gen]

theorem restartFull_keeps (straps : BitVec 2) : KeepsForms s (restartFull straps s) :=
  (blockReset_keeps s _ _ _ _ _ _ _).trans (restartFull_calm s straps).keeps

theorem restartFull_saveForm (straps : BitVec 2) : SaveForm (restartFull straps s) :=
  (restartFull_calm s straps).slots.saveForm (blockReset_saveForm _ _ _ _ _ _ _)

end

/-! ## The load (R169) -/

section
variable (s : State)

/-- What a scene leaves: flags, slots, save and writers, and the presence of each word clock. -/
theorem putScene_frame (x : Scene) (outcome : LoadOutcome) : ∃ e g h n a tone late lost mask guard o,
    putScene x outcome s = { s with
      entries := e, tags := g, holders := h, lanes := n, saps := a, toneLevel := tone, lateMs := late,
      lostSeconds := lost, lineMask := mask, saveGuard := guard, loadOutcome := o } ∧
    ∀ p, (a.look p).present = (s.saps.look p).present :=
  ⟨_, _, _, _, _, _, _, _, _, _, _, rfl, fun p => by rw [Table.look_gen]⟩

theorem putScene_slots (x : Scene) (outcome : LoadOutcome) : SameSlots s (putScene x outcome s) := by
  obtain ⟨_, _, _, _, _, _, _, _, _, _, _, frame, _⟩ := putScene_frame s x outcome
  rw [frame]
  exact ⟨rfl, rfl, rfl, fun _ => rfl⟩

theorem putScene_follow (x : Scene) (outcome : LoadOutcome) : FlagsFollow s (putScene x outcome s) := by
  obtain ⟨_, _, _, _, _, _, _, _, _, _, _, frame, present⟩ := putScene_frame s x outcome
  rw [frame]
  exact ⟨fun _ => id, fun _ => .inl, fun p arisen => .inl (present p ▸ arisen), .inl⟩

theorem openAllFrames_calm : Calm s (openAllFrames s) := by
  unfold openAllFrames
  exact .foldl _ (fun t l => (latchTags_calm t s l).trans (modLane_calm _ l _)) _ s

theorem handFault_calm (g : FaultGroup) : Calm s (handFault g s) := by
  refine Calm.ports s (fun c => ?_) fun c => ?_
  all_goals
    rw [Table.look_gen, CtrlPort.handFault]
    split <;> rfl

/-- R163: the last step of start-up, before the flags are handed on. -/
theorem finishStartup_frame : ∃ x p a,
    (∀ c, (p.look c).slot = (s.ports.look c).slot ∧ (p.look c).liveness = .silent) ∧
    Calm { s with phase := .running, scrubPos := x, scrubAt := a, ports := p } (finishStartup s) := by
  refine ⟨_, _, _, fun c => ?_, Calm.foldl (fun t g => handFault g t) handFault_calm _ _⟩
  rw [Table.look_gen]
  exact ⟨rfl, rfl⟩

/-- Start-up up to its last step. -/
theorem loaded_keeps (x : Scene) (outcome : LoadOutcome) :
    SameSlots s (alignAll (openAllFrames (putScene x outcome (closeAllFrames s)))) ∧
      FlagsFollow s (alignAll (openAllFrames (putScene x outcome (closeAllFrames s)))) := by
  have closed : Calm s (closeAllFrames s) := .foldl _ (fun s l => closeFrame_calm s l) _ s
  have opened := openAllFrames_calm (putScene x outcome (closeAllFrames s))
  have aligned : Calm (openAllFrames (putScene x outcome (closeAllFrames s)))
      (alignAll (openAllFrames (putScene x outcome (closeAllFrames s)))) := .entries _ _
  exact ⟨((closed.slots.trans (putScene_slots _ x outcome)).trans opened.slots).trans aligned.slots,
    ((closed.follow.trans (putScene_follow _ x outcome)).trans opened.follow).trans aligned.follow⟩

/-- R169: in start-up no save is in progress; at its end every port is SILENT. -/
theorem finishStartup_keeps {t : State} (starting : s.phase = .starting) (slots : SameSlots s t)
    (follow : FlagsFollow s t) : KeepsForms s (finishStartup t) := by
  obtain ⟨x, p, a, ports, calm⟩ := finishStartup_frame t
  refine ⟨fun _ => calm.holds.lostForm (lostForm_of_unlost fun c => ?_), fun form => calm.slots.saveForm ?_,
    fun form => calm.follow.conditionForm ?_⟩
  · exact fun lost => nomatch (ports c).2.symm.trans lost
  · obtain ⟨idle, unread⟩ := SaveForm.idle form (by rw [starting]; decide)
    refine (saveForm_of_none ?_).mpr fun c => ?_
    · exact slots.saving.trans idle
    show (p.look c).slot.isExecuting = false
    rw [(ports c).1, slots.slots]
    exact unread c
  · exact follow.conditionForm form

theorem sceneLoad_keeps : KeepsForms s (sceneLoad s) := by
  unfold sceneLoad
  split
  · rename_i starting
    obtain ⟨slots, follow⟩ := loaded_keeps s (chosenScene s.store).1 (chosenScene s.store).2
    dsimp only
    split
    · have failed := setFlag_calm
        (alignAll (openAllFrames (putScene (chosenScene s.store).1 (chosenScene s.store).2 (closeAllFrames s))))
        .sceneLoadFail
      exact finishStartup_keeps s starting (slots.trans failed.slots) (follow.trans failed.follow)
    · exact finishStartup_keeps s starting slots follow
  · exact .refl s

end

/-! ## Condition flags (R158, R159, R172) -/

section
variable (s : State)

theorem setFlags_calm (fs : List FaultFlag) : Calm s (fs.foldl (fun s f => setFlag f s) s) :=
  .foldl _ (fun s f => setFlag_calm s f) fs s

theorem flagSet_setFlags (fs : List FaultFlag) (f : FaultFlag) :
    flagSet (fs.foldl (fun s f => setFlag f s) s) f = true ↔ flagSet s f = true ∨ f ∈ fs := by
  induction fs generalizing s with
  | nil => simp
  | cons g fs ih =>
    rw [List.foldl_cons, ih, flagSet_setFlag, Bool.or_eq_true, decide_eq_true_iff, List.mem_cons, or_assoc]

theorem crowded_mem_conditionFlags (l : LaneId) :
    FaultFlag.crowded l ∈ conditionFlags s ↔ (s.writers.look l).crowding ≠ .none := by
  simp [conditionFlags]

theorem portClockLost_mem_conditionFlags (p : SapId) :
    FaultFlag.portClockLost p ∈ conditionFlags s ↔ (s.saps.look p).present = false := by
  simp [conditionFlags]

theorem flagSet_masked (selection : BitVec 56) (f : FaultFlag) :
    (s.flags &&& ~~~selection).getLsbD f.bit = (flagSet s f && !selection.getLsbD f.bit) := by
  simp [flagSet, f.bit_lt]

/-- The selected flags cleared, before the condition flags are set again (R159). -/
def flagsCleared (selection : BitVec 56) : State := { s with
  flags := s.flags &&& ~~~selection
  firstSuspect := if selection.getLsbD FaultFlag.entryCheck.bit then none else s.firstSuspect }

/-- R158, R159: a flag stays set where it is not selected, and is set again where its condition holds. -/
theorem flagSet_clearFlags (selection : BitVec 56) (f : FaultFlag) : flagSet (clearFlags selection s) f = true ↔
    (flagSet s f = true ∧ selection.getLsbD f.bit = false) ∨
      f ∈ conditionFlags s ∧ selection.getLsbD f.bit = true := by
  rw [clearFlags, flagSet_setFlags, List.mem_filter, flagSet, flagSet_masked, Bool.and_eq_true, Bool.not_eq_true']

/-- R158, R159: a flag that is cleared while its condition holds is set again, and the first-suspect record goes
with ENTRY_CHECK. -/
theorem clearFlags_orderly (selection : BitVec 56) : Orderly s (clearFlags selection s) := by
  have calm : Calm (flagsCleared s selection) (clearFlags selection s) := setFlags_calm _ _
  have before : SameSlots s (flagsCleared s selection) := ⟨rfl, rfl, rfl, fun _ => rfl⟩
  refine ⟨before.trans calm.slots, fun form => calm.holds.lostForm form, ?_⟩
  rintro ⟨crowded, clocks, suspected⟩
  have set (f : FaultFlag) (held : flagSet s f = true) (holds : f ∈ conditionFlags s) :
      flagSet (clearFlags selection s) f = true := by
    rw [flagSet_clearFlags]
    cases selected : selection.getLsbD f.bit with
    | false => exact .inl ⟨held, rfl⟩
    | true => exact .inr ⟨holds, rfl⟩
  refine ⟨fun l arisen => (calm.follow.crowding l arisen).elim (fun held => ?_) id,
    fun p arisen => (calm.follow.clocks p arisen).elim (fun held => ?_) id,
    fun arisen => (calm.follow.suspect arisen).elim (fun held => ?_) id⟩
  · exact set _ (crowded l held) ((crowded_mem_conditionFlags s l).mpr held)
  · exact set _ (clocks p held) ((portClockLost_mem_conditionFlags s p).mpr held)
  · refine (flagSet_clearFlags s selection _).mpr (.inl ?_)
    have kept : (if selection.getLsbD FaultFlag.entryCheck.bit then none else s.firstSuspect).isSome = true := held
    cases selected : selection.getLsbD FaultFlag.entryCheck.bit with
    | true => simp [selected] at kept
    | false =>
      rw [selected] at kept
      exact ⟨suspected kept, rfl⟩

/-- RESTART RETAIN before the condition flags are set again (R172). -/
def portsRestarted : State := { s with
  ports := Table.gen fun c =>
    ({ s.ports.look c with
      slot := .empty, overrunMark := false, notices := 0, liveness := .silent, watchAt := s.now } :
        CtrlPort).notify .restarted
  flags := 0
  firstSuspect := none }

theorem restartRetain_calm : Calm (portsRestarted s) (restartRetain s) := setFlags_calm _ _

theorem portsRestarted_port (c : CpId) : ((portsRestarted s).ports.look c).slot = .empty ∧
    ((portsRestarted s).ports.look c).liveness = .silent := by
  rw [portsRestarted, Table.look_gen]
  exact ⟨rfl, rfl⟩

/-- R172: the flags of the conditions that hold are set, and no first suspect is recorded. -/
theorem restartRetain_conditionForm : ConditionForm (restartRetain s) := by
  have calm := restartRetain_calm s
  have set (f : FaultFlag) (holds : f ∈ conditionFlags s) : flagSet (restartRetain s) f = true := by
    rw [restartRetain, flagSet_setFlags]
    exact .inr holds
  refine ⟨fun l arisen => (calm.follow.crowding l arisen).elim (fun held => ?_) id,
    fun p arisen => (calm.follow.clocks p arisen).elim (fun held => ?_) id,
    fun arisen => (calm.follow.suspect arisen).elim (fun none => nomatch none) id⟩
  · exact set _ ((crowded_mem_conditionFlags s l).mpr held)
  · exact set _ ((portClockLost_mem_conditionFlags s p).mpr held)

end

/-! ## Saves (R166, R167) -/

section
variable (s : State)

/-- The slot of a save's caller is answered. -/
theorem placeSave_slot (c : CpId) (r : Result) (k : CpId) : ((placeSave c r s).ports.look k).slot.isExecuting =
    (decide (k ≠ c) && (s.ports.look k).slot.isExecuting) := by
  unfold placeSave
  by_cases own : k = c
  · subst own
    cases slot : (s.ports.look k).slot <;> simp [slot, placeCompleted, Slot.isExecuting]
  · have other : c ≠ k := fun h => own h.symm
    cases (s.ports.look c).slot <;> simp [own, other, placeCompleted]

theorem placeCompleted_holds (c : CpId) (code tag : Byte) (r : Result) (payload : List Byte) :
    SameHolds s (placeCompleted c code tag r payload s) := modPort_holds s rfl

theorem placeCompleted_follow (c : CpId) (code tag : Byte) (r : Result) (payload : List Byte) :
    FlagsFollow s (placeCompleted c code tag r payload s) := .same (fun _ => id) rfl rfl rfl

theorem placeSave_holds (c : CpId) (r : Result) : SameHolds s (placeSave c r s) := by
  unfold placeSave
  split
  · exact placeCompleted_holds s c _ _ r []
  · exact (Calm.refl s).holds

theorem placeSave_follow (c : CpId) (r : Result) : FlagsFollow s (placeSave c r s) := by
  unfold placeSave
  split
  · exact placeCompleted_follow s c _ _ r []
  · exact (Calm.refl s).follow

theorem placeSave_saving (c : CpId) (r : Result) : (placeSave c r s).saving = s.saving := by
  unfold placeSave
  split <;> rfl

/-- R146, R165: the save that ends is answered on its caller's port, the one whose slot is EXECUTING. -/
theorem placedSave_keeps {v : Save} (busy : s.saving = some v) (store : StoreContent) (r : Result) :
    KeepsForms s (placeSave v.caller r { s with saving := none, store := store }) := by
  refine ⟨fun form => (placeSave_holds _ v.caller r).lostForm form, fun form => ?_,
    fun form => (placeSave_follow _ v.caller r).conditionForm form⟩
  refine (saveForm_of_none (placeSave_saving _ _ _)).mpr fun k => ?_
  rw [placeSave_slot, Bool.and_eq_false_iff, decide_eq_false_iff_not, not_not, or_iff_not_imp_left]
  intro other
  refine Bool.eq_false_iff.mpr fun executing => other ?_
  obtain ⟨w, saving, caller⟩ := (form.1 k).mp executing
  cases busy.symm.trans saving
  exact caller.symm

theorem finishSave_keeps (ok : Bool) {v : Save} (busy : s.saving = some v) : KeepsForms s (finishSave ok v s) :=
  ite_relates _ _ _ _ _ (placedSave_keeps s busy _ _)
    ((placedSave_keeps s busy _ _).trans (setFlag_calm _ _).keeps)

theorem saveComplete_keeps (readBack : Bool) : KeepsForms s (saveComplete readBack s) := by
  unfold saveComplete
  split
  · exact .refl s
  · rename_i busy
    exact finishSave_keeps s _ busy

theorem saveTimeout_keeps : KeepsForms s (saveTimeout s) := by
  unfold saveTimeout
  split
  · exact .refl s
  · rename_i busy
    exact ite_relates _ _ _ _ _ (finishSave_keeps s false busy) (.refl s)

end

/-! ## Claims and liveness (R99, R100, R105 to R107) -/

section
variable {s t : State}

/-- Where ports lose items, no LOST port may gain one. -/
theorem orderly_of_givesWay {may : List Notice} {lost : CpId → ItemId → Bool} (h : GivesWay may lost s t)
    (holders : ∀ i k, (s.ports.look k).liveness = .lost → t.holders.look i = some k → s.holders.look i = some k) :
    Orderly s t := by
  have port (k : CpId) : (t.ports.look k).slot = (s.ports.look k).slot ∧
      (t.ports.look k).liveness = (s.ports.look k).liveness := by
    rw [(h.ports k).1]
    exact ⟨rfl, rfl⟩
  have author (n : TagId) : (t.tags.look n).author = (s.tags.look n).author := by
    rw [TagRecord.author, TagRecord.author, h.content]
  have lostForm := lostForm_of_fewer (fun k lost => (port k).2 ▸ lost) holders
    (fun n k _ held => (author n).symm.trans held)
  obtain ⟨_, _, _, _, frame⟩ := h.frame
  rw [frame] at port lostForm ⊢
  exact ⟨⟨rfl, rfl, rfl, fun k => (port k).1⟩, lostForm, id⟩

/-- A record's author, where the ports that `dead` names have given up what they authored. -/
theorem author_spared {dead : CpId → Bool} {r q : TagRecord}
    (h : q.content = r.content.map fun x => { x with author := spared dead x.author }) :
    q.author = spared dead r.author := by
  rw [TagRecord.author, TagRecord.author, h]
  cases r.content <;> rfl

/-- A judgement by which a port becomes LOST only where it gives up its claims and records. -/
theorem orderly_of_judged {late dead : CpId → Bool} {live : CpId → Liveness} (h : Judged late dead live s t)
    (lost : ∀ k, live k = .lost → dead k = true ∨ (s.ports.look k).liveness = .lost) : Orderly s t := by
  have port (k : CpId) : (t.ports.look k).slot = (s.ports.look k).slot ∧ (t.ports.look k).liveness = live k := by
    rw [(h.ports k).1]
    exact ⟨rfl, rfl⟩
  have lostForm : LostForm s → LostForm t := by
    intro form k now
    rcases lost k ((port k).2 ▸ now) with gone | before
    · refine ⟨fun i held => ?_, fun n authored => ?_⟩
      · rw [h.losses.holders, spared_eq_some, gone] at held
        exact nomatch held.2
      · rw [author_spared (h.losses.content n), spared_eq_some, gone] at authored
        exact nomatch authored.2
    · obtain ⟨unheld, unauthored⟩ := form k before
      refine ⟨fun i held => unheld i ?_, fun n authored => unauthored n ?_⟩
      · rw [h.losses.holders, spared_eq_some] at held
        exact held.1
      · rw [author_spared (h.losses.content n), spared_eq_some] at authored
        exact authored.1
  have set (f : FaultFlag) (before : flagSet s f = true) : flagSet t f = true := (h.flags f).mpr (.inl before)
  obtain ⟨_, _, _, _, _, frame⟩ := h.frame
  rw [frame] at port lostForm set ⊢
  exact ⟨⟨rfl, rfl, rfl, fun k => (port k).1⟩, lostForm, (FlagsFollow.same set rfl rfl rfl).conditionForm⟩

theorem portLate_orderly (c : CpId) (s : State) : Orderly s (portLate c s) := by
  refine ite_relates _ _ _ _ _ (orderly_of_judged (becomeLate_judged c s) fun k lost => .inr ?_) (.refl s)
  unfold livenessWith at lost
  split at lost
  · cases lost
  · exact lost

theorem portLost_orderly (c : CpId) (s : State) : Orderly s (portLost c s) := by
  refine ite_relates _ _ _ _ _ (orderly_of_judged (becomeLost_judged c s) fun k lost => ?_) (.refl s)
  unfold livenessWith at lost
  split at lost
  · rename_i own
    exact .inl (decide_eq_true own)
  · exact .inr lost

theorem judgeLiveness_orderly (c : CpId) (s : State) : Orderly s (judgeLiveness c s) :=
  (portLate_orderly c s).trans (portLost_orderly c _)

end

end Sys2Proof.Machine.FormsKept
end

section
/-! PROOFS. Every step keeps the forms of the slots, the flags and the LOST ports (R90, R107, R146, R158, R165): the
transactions of a control port, the effect of each command, and the step. -/

namespace Sys2Proof.Machine.FormsKept

open ClaimMoves ClaimRanges

/-! ## Transactions that take no command (R145 to R150) -/

section
variable (s : State)

/-- A port whose slot neither becomes EXECUTING nor ceases to be. -/
theorem modPort_keeps {c : CpId} {f : CtrlPort → CtrlPort}
    (slot : (f (s.ports.look c)).slot.isExecuting = (s.ports.look c).slot.isExecuting)
    (liveness : (f (s.ports.look c)).liveness = (s.ports.look c).liveness) : KeepsForms s (modPort c f s) := by
  refine ⟨(modPort_holds s liveness).lostForm, fun ⟨slots, torn⟩ => ⟨fun k => ?_, torn⟩, id⟩
  refine Iff.trans ?_ (slots k)
  rw [modPort_look]
  split
  · rename_i own
    subst own
    rw [slot]
  · rfl

theorem endTransaction_calm (c : CpId) (bytes : List Byte) : Calm s (endTransaction c bytes s) :=
  modPort_calm s rfl rfl

theorem summaryPoll_calm (c : CpId) (bytes : List Byte) : Calm s (summaryPoll c bytes s) :=
  ite_relates _ _ _ _ _ (endTransaction_calm s c _) (.refl s)

theorem chipSelectFall_calm (c : CpId) : Calm s (chipSelectFall c s) :=
  ite_relates _ _ _ _ _ (modPort_calm s rfl rfl) (.refl s)

/-- R146: only a waiting response is emptied by being read. -/
theorem readResponse_keeps (c : CpId) (clocked : Nat) : KeepsForms s (readResponse c clocked s) := by
  refine ite_relates _ _ _ _ _ ((endTransaction_calm s c _).keeps.trans (modPort_keeps _ ?_ rfl)) (.refl s)
  dsimp only [Slot.afterRead]
  split
  · rename_i read
    rw [read.2.2]
    rfl
  · rfl

theorem place_keeps {c : CpId} (idle : (s.ports.look c).slot.isExecuting = false) (r : Response) :
    KeepsForms s (place c r s) := modPort_keeps s idle.symm rfl

/-- R150: during start-up no slot is EXECUTING. -/
theorem place_starting_keeps (c : CpId) (r : Response) (starting : s.phase = .starting) :
    KeepsForms s (place c r s) := by
  refine ⟨(modPort_holds s rfl).lostForm, fun form => ?_, id⟩
  obtain ⟨_, idle⟩ := SaveForm.idle form (by rw [starting]; decide)
  exact (place_keeps s (idle c) r).save form

/-- R148, R150: what the end of a write transaction keeps where its judgement keeps it, which is made while the
engine runs and the slot is not EXECUTING. -/
theorem writeEnds_keeps (c : CpId) (code tag : Byte) (n : Nat) {judge : State → State}
    (h : ∀ s, Takes s c → KeepsForms s (judge s)) : KeepsForms s (writeEnds c code tag n judge s) := by
  have ended (bytes : List Byte) := endTransaction_calm s c bytes
  unfold writeEnds
  split_ifs with powered starting
  · exact (ended _).keeps.trans (place_starting_keeps _ c _ starting)
  · have running : s.phase = .running := by
      simpa [awake, starting] using powered
    dsimp only
    split
    · exact (ended _).keeps.trans (modPort_keeps _ rfl rfl)
    · rename_i idle
      refine (ended _).keeps.trans (h _ ⟨running, ?_⟩)
      rw [(ended _).slots.slots]
      cases slot : (s.ports.look c).slot with
      | executing a b => exact absurd slot (idle a b)
      | empty => rfl
      | answered r => rfl
  · exact .refl s

end

/-! ## Commands (R105, R146, R147) -/

/-- A command's effect meets its port LIVE with its slot EXECUTING, while the engine runs. -/
structure Serving (c : CpId) (s : State) : Prop where
  running : s.phase = .running
  live : (s.ports.look c).liveness = .live
  executing : (s.ports.look c).slot.isExecuting = true

/-- `SaveForm` of every port but `c`, which is being served and has no save in progress. -/
structure OthersFit (c : CpId) (s : State) : Prop where
  slots : ∀ k, k ≠ c → ((s.ports.look k).slot.isExecuting = true ↔ ∃ v, s.saving = some v ∧ v.caller = k)
  caller : ∀ v, s.saving = some v → v.caller ≠ c
  torn : s.saving.isSome = true → s.store = .torn ∧ s.phase = .running

/-- What the effect of a command on `c` leaves of the forms, by whether it completes within its event. -/
structure Leaves (c : CpId) (s : State) (r : State × Option Reply) : Prop where
  lost : LostForm s → LostForm r.1
  conditions : ConditionForm s → ConditionForm r.1
  completed : r.2.isSome = true → OthersFit c s → OthersFit c r.1
  busy : r.2 = none → OthersFit c s → SaveForm r.1

/-- A command whose effect keeps the forms. -/
def EffectKeeps (c : CpId) (effect : Effect) : Prop := ∀ s, Serving c s → Leaves c s (effect s)

section
variable {c : CpId} {s t : State} {r : Reply}

theorem OthersFit.same (h : OthersFit c s) (same : SameSlots s t) : OthersFit c t := by
  obtain ⟨slots, caller, torn⟩ := h
  refine ⟨fun k other => ?_, ?_, ?_⟩
  · rw [same.slots, same.saving]
    exact slots k other
  · rw [same.saving]
    exact caller
  · rw [same.saving, same.store, same.phase]
    exact torn

/-- An effect that leaves the slots, and is answered. -/
theorem Leaves.answered (h : Orderly s t) : Leaves c s (t, some r) :=
  ⟨h.lost, h.conditions, fun _ fits => fits.same h.slots, fun none => nomatch none⟩

/-- A refusal, or an answer that changes nothing. -/
theorem Leaves.unchanged : Leaves c s (s, some r) := .answered (.refl s)

theorem Leaves.calm (h : Calm s t) : Leaves c s (t, some r) := .answered h.orderly

/-- R146, R148: the response is placed in the slot of a port that has been served. -/
theorem placeCompleted_saveForm (fits : OthersFit c s) (code tag : Byte) (r : Result) (payload : List Byte) :
    SaveForm (placeCompleted c code tag r payload s) := by
  refine ⟨fun k => ?_, fits.torn⟩
  show _ ↔ ∃ v, s.saving = some v ∧ v.caller = k
  by_cases own : k = c
  · subst own
    rw [placeCompleted, modPort_look_self]
    exact ⟨fun executing => (nomatch executing),
      fun ⟨v, saving, caller⟩ => absurd caller (fits.caller v saving)⟩
  · rw [placeCompleted_other _ _ _ _ own]
    exact fits.slots k own

/-- The state in which a command's effect runs (R105, R147). -/
def begun (c : CpId) (code tag : Byte) (s : State) : State :=
  modPort c (fun p => { p with slot := .executing code tag }) (refresh c s)

theorem begun_port (code tag : Byte) (k : CpId) : (begun c code tag s).ports.look k =
    if k = c then { s.ports.look c with liveness := .live, watchAt := s.now, slot := .executing code tag }
    else s.ports.look k := by
  unfold begun refresh
  split
  · rename_i own
    rw [own, modPort_look_self, modPort_look_self]
  · rename_i other
    rw [modPort_look_ne _ _ fun h => other h.symm, modPort_look_ne _ _ fun h => other h.symm]

theorem begun_serving (running : s.phase = .running) (code tag : Byte) : Serving c (begun c code tag s) := by
  refine ⟨running, ?_, ?_⟩
  · rw [begun_port, if_pos rfl]
  · rw [begun_port, if_pos rfl]
    rfl

theorem begun_lostForm (code tag : Byte) (form : LostForm s) : LostForm (begun c code tag s) := by
  intro k lost
  rw [begun_port] at lost
  split at lost
  · cases lost
  · exact form k lost

/-- The served port's slot was not EXECUTING, so no save of its own is in progress. -/
theorem begun_othersFit (idle : (s.ports.look c).slot.isExecuting = false) (code tag : Byte) (form : SaveForm s) :
    OthersFit c (begun c code tag s) := by
  obtain ⟨slots, torn⟩ := form
  refine ⟨fun k other => ?_, fun v saving caller => ?_, torn⟩
  · rw [begun_port, if_neg other]
    exact slots k
  · have executing := (slots c).mpr ⟨v, saving, caller⟩
    cases idle.symm.trans executing

/-- R105, R146, R147: a taken command keeps the forms as its effect does. -/
theorem runCommand_keeps {effect : Effect} (h : EffectKeeps c effect) (taken : Takes s c) (code tag : Byte) :
    KeepsForms s (runCommand c code tag effect s) := by
  obtain ⟨running, idle⟩ := taken
  have leaves := h _ (begun_serving running code tag)
  have lost := begun_lostForm (c := c) code tag (s := s)
  have fits := begun_othersFit idle code tag
  have ran : runCommand c code tag effect s = match (effect (begun c code tag s)).2 with
      | some (result, payload) => placeCompleted c code tag result payload (effect (begun c code tag s)).1
      | none => (effect (begun c code tag s)).1 := rfl
  rw [ran]
  split
  · rename_i result payload replied
    exact ⟨fun form => (placeCompleted_holds _ c code tag result payload).lostForm (leaves.lost (lost form)),
      fun form => placeCompleted_saveForm (leaves.completed (by rw [replied]; rfl) (fits form)) code tag result payload,
      fun form => leaves.conditions form⟩
  · rename_i unanswered
    exact ⟨fun form => leaves.lost (lost form), fun form => leaves.busy unanswered (fits form),
      fun form => leaves.conditions form⟩

theorem command_keeps {effect : Effect} (h : EffectKeeps c effect) (code tag : Byte) (s : State) :
    KeepsForms s (command c code tag effect s) :=
  writeEnds_keeps s c code tag 40 fun _ taken => runCommand_keeps h taken code tag

end

theorem badBlock_keeps (c : CpId) (bytes : List Byte) (s : State) : KeepsForms s (badBlock c bytes s) := by
  refine writeEnds_keeps s c _ _ _ fun u taken => ?_
  unfold rejectBlock
  split
  · exact (place_keeps u taken.2 _).trans (setFlag_calm _ _).keeps
  · exact .refl u

/-! ### Commands that only answer (R22, R67, R80, R103, R130, R137) -/

section
variable (c : CpId)

theorem effectReadClaims_leaves (first : BitVec 16) (count : Byte) : EffectKeeps c (effectReadClaims first count) := by
  intro s _
  unfold effectReadClaims
  split <;> exact .unchanged

theorem effectReadLane_leaves (lane part track : Byte) : EffectKeeps c (effectReadLane lane part track) := by
  intro s _
  unfold effectReadLane
  repeat' split
  all_goals exact .unchanged

theorem effectReadQueue_leaves (lane : Byte) : EffectKeeps c (effectReadQueue c lane) := by
  intro s _
  unfold effectReadQueue
  split <;> exact .unchanged

theorem effectReadEntry_leaves (dest : BitVec 16) : EffectKeeps c (effectReadEntry dest) := by
  intro s _
  unfold effectReadEntry
  split <;> exact .unchanged

theorem effectReadPort_leaves (port : Byte) : EffectKeeps c (effectReadPort port) := by
  intro s _
  unfold effectReadPort
  split <;> exact .unchanged

theorem effectReadTag_leaves (index : Byte) : EffectKeeps c (effectReadTag index) := by
  intro s _
  unfold effectReadTag
  split <;> exact .unchanged

end

/-! ### Notices, masks and settings -/

section
variable (c : CpId)

theorem effectClearNotices_leaves (notices : Byte) : EffectKeeps c (effectClearNotices c notices) := by
  intro s _
  unfold effectClearNotices
  split
  · exact .unchanged
  · exact .calm (modPort_calm s rfl rfl)

theorem effectSetNoticeMask_leaves (noticeMask faultMask : Byte) :
    EffectKeeps c (effectSetNoticeMask c noticeMask faultMask) := by
  intro s _
  unfold effectSetNoticeMask
  split
  · exact .unchanged
  · exact .calm (modPort_calm s rfl rfl)

theorem effectSetPortRef_leaves (port lane : Byte) : EffectKeeps c (effectSetPortRef c port lane) := by
  intro s _
  unfold effectSetPortRef
  split
  · split_ifs
    · exact .unchanged
    · exact .unchanged
    · refine .calm ?_
      exact modSap_clock_calm s _ fun _ => rfl
  · exact .unchanged

theorem effectSetTone_leaves (level : Byte) : EffectKeeps c (effectSetTone c level) := by
  intro s _
  unfold effectSetTone
  split_ifs
  · exact .unchanged
  · exact .unchanged
  · exact .calm (.same rfl rfl rfl rfl)

theorem effectSetLineMask_leaves (mask : Byte) : EffectKeeps c (effectSetLineMask c mask) := by
  intro s _
  unfold effectSetLineMask
  split_ifs
  · exact .unchanged
  · exact .unchanged
  · exact .calm (.same rfl rfl rfl rfl)

theorem effectSetGuard_leaves (value : Byte) : EffectKeeps c (effectSetGuard c value) := by
  intro s _
  unfold effectSetGuard
  split_ifs
  · exact .unchanged
  · exact .unchanged
  · exact .calm (.same rfl rfl rfl rfl)

theorem effectNudge_leaves (dest : BitVec 16) (amount : Byte) : EffectKeeps c (effectNudge c dest amount) := by
  intro s _
  unfold effectNudge
  split
  · exact .unchanged
  · split_ifs
    iterate 3 exact .unchanged
    exact .calm (modEntry_calm s _ _)

theorem effectCheckTest_leaves (dest : BitVec 16) : EffectKeeps c (effectCheckTest c dest) := by
  intro s _
  unfold effectCheckTest
  split
  · exact .unchanged
  · split_ifs
    · exact .unchanged
    · exact .calm (modEntry_calm s _ _)

end

/-! ### Lane commands (R20) -/

section
variable (c : CpId) (s : State)

theorem laneCommand_leaves (lane : Byte) (fieldsOk : Bool) (allowed : LaneState → Bool)
    {effect : LaneId → State → State} (h : ∀ s l, Calm s (effect l s)) :
    EffectKeeps c (laneCommand c lane fieldsOk allowed effect) := by
  intro s _
  unfold laneCommand
  split
  · exact .unchanged
  · split_ifs
    iterate 3 exact .unchanged
    exact .calm (h s _)

theorem laneEnable_calm (l : LaneId) : Calm s (laneEnable l s) := (modLane_calm s l _).trans (laneNotice_calm _ l)

theorem laneDisable_calm (l : LaneId) : Calm s (laneDisable l s) := by
  have off (u : State) : Calm u (laneNotice l (modLane l (fun n => { n with
      state := .off, coastCount := 0, relockSeen := false, resumeArmed := false, parkCause := none }) u)) :=
    (modLane_calm u l _).trans (laneNotice_calm _ l)
  unfold laneDisable
  dsimp only
  split
  · exact .refl s
  · exact (departRun_calm s l).trans (off _)
  · exact (leaveParked_calm s l).trans (off _)
  · exact off s

theorem lanePark_calm (l : LaneId) : Calm s (lanePark l s) :=
  Calm.trans (ite_relates _ _ _ _ _ (departRun_calm s l) (.refl s)) (enterParked_calm _ l _)

theorem laneResume_calm (l : LaneId) : Calm s (laneResume l s) :=
  ((leaveParked_calm s l).trans (modLane_calm _ l _)).trans (laneNotice_calm _ l)

theorem setParkMode_calm (mode : Byte) (l : LaneId) : Calm s (setParkMode mode l s) := by
  unfold setParkMode
  split
  · exact modLane_calm s l _
  · exact .refl s

end

/-! ### Take queues (R116 to R130) -/

section
variable (c : CpId)

theorem stageChange_calm (l : LaneId) (x : Change) (s : State) : Calm s (stageChange c l x s) :=
  ((modTake_calm s l _).trans (countUp_calm _ _)).trans (endChanges_calm _ _)

theorem effectStage_leaves (dest source : BitVec 16) (fade tagRef : Byte) (delay : BitVec 16) :
    EffectKeeps c (effectStage c dest source fade tagRef delay) := by
  intro s _
  unfold effectStage
  split
  · exact .unchanged
  · dsimp only
    split_ifs
    iterate 3 exact .unchanged
    exact .calm (stageChange_calm c _ _ s)

theorem effectUnstage_leaves (dest : BitVec 16) : EffectKeeps c (effectUnstage c dest) := by
  intro s _
  unfold effectUnstage
  split
  · exact .unchanged
  · dsimp only
    split_ifs
    · exact .unchanged
    · exact .calm ((modTake_calm s _ _).trans (endChanges_calm _ _))

theorem effectClose_leaves (lane delay : Byte) : EffectKeeps c (effectClose c lane delay) := by
  intro s _
  unfold effectClose
  split
  · exact .unchanged
  · dsimp only
    split_ifs
    iterate 3 exact .unchanged
    exact .calm (modTake_calm s _ _)

theorem effectCancel_leaves (lane position closure : Byte) :
    EffectKeeps c (effectCancel c lane position closure) := by
  intro s _
  unfold effectCancel
  split
  · exact .unchanged
  · rename_i l _
    split_ifs
    · exact .unchanged
    · split
      · exact .unchanged
      · rename_i b _
        have ended : Calm s (endChanges b.changes
            (modTake l (TakeUnit.cancelled (takeDue s l) position.toNat) s)) :=
          (modTake_calm s l _).trans (endChanges_calm _ _)
        split_ifs
        · exact .unchanged
        · exact .unchanged
        · exact .calm ended
        · exact .calm (ended.trans (setNotice_calm _ _ (by decide)))

theorem effectHold_leaves (on : Bool) (lane : Byte) : EffectKeeps c (effectHold on c lane) := by
  intro s _
  unfold effectHold
  split
  · exact .unchanged
  · split
    · exact .unchanged
    · split_ifs
      · exact .unchanged
      · exact .calm (modTake_calm s _ fun t => { t with holdCommand := on })

end

/-! ### Claims, records and intervals (R98 to R100, R109, R135, R136) -/

section
variable (c : CpId)

/-- R98: the caller is LIVE. -/
theorem effectClaim_leaves (first : BitVec 16) (count : Byte) : EffectKeeps c (effectClaim c first count) := by
  intro s serving
  unfold effectClaim
  dsimp only
  split
  · exact .unchanged
  · split
    · exact .unchanged
    · refine .answered ?_
      rw [takeItems_eq]
      refine ⟨⟨rfl, rfl, rfl, fun _ => rfl⟩, ?_, id⟩
      refine lostForm_of_fewer (fun _ => id) (fun i k lost held => ?_) fun _ _ _ => id
      rw [takenTable_look] at held
      split at held
      · cases held
        exact nomatch serving.live.symm.trans lost
      · exact held

theorem effectRelease_leaves (first : BitVec 16) (count : Byte) : EffectKeeps c (effectRelease c first count) := by
  intro s _
  unfold effectRelease
  dsimp only
  split
  · exact .unchanged
  · refine .answered (orderly_of_givesWay (freeItems_gives c _ s) fun i k _ held => ?_)
    rw [freeItems_holders] at held
    split at held
    · cases held
    · exact held

/-- R100: the caller is LIVE. -/
theorem effectSeize_leaves (first : BitVec 16) (count : Byte) : EffectKeeps c (effectSeize c first count) := by
  intro s serving
  unfold effectSeize
  dsimp only
  split_ifs
  · exact .unchanged
  · exact .unchanged
  · obtain ⟨gives, holders, _⟩ := foldl_seizeItem c (rangeItems first count) s
    refine .answered (orderly_of_givesWay gives fun i k lost held => ?_)
    rw [holders] at held
    split at held
    · cases held
      exact nomatch serving.live.symm.trans lost
    · exact held

theorem effectSetWatch_leaves (late : BitVec 16) (lost : Byte) : EffectKeeps c (effectSetWatch c late lost) := by
  intro s _
  unfold effectSetWatch
  split_ifs
  · exact .unchanged
  · exact .unchanged
  · have set : Calm s { s with lateMs := late.toNat, lostSeconds := lost.toNat } := .same rfl rfl rfl rfl
    exact .answered (set.orderly.trans (.foldl _ (fun s k => judgeLiveness_orderly k s) _ _))

/-- A record that a LIVE port authors, or that has no author. -/
theorem modTag_orderly {n : TagId} {f : TagRecord → TagRecord} {s : State}
    (author : ∀ k, (f (s.tags.look n)).author = some k → (s.ports.look k).liveness ≠ .lost) :
    Orderly s (modTag n f s) := by
  refine ⟨⟨rfl, rfl, rfl, fun _ => rfl⟩, ?_, id⟩
  refine lostForm_of_fewer (fun _ => id) (fun _ _ _ => id) fun m k lost authored => ?_
  rw [modTag_look] at authored
  split at authored
  · rename_i own
    subst own
    exact absurd lost (author k authored)
  · exact authored

theorem effectWriteTag_leaves (index kind length : Byte) (label : Table Byte 16) (user : Table Byte 8) :
    EffectKeeps c (effectWriteTag c index kind length label user) := by
  intro s serving
  unfold effectWriteTag
  dsimp only
  split
  · exact .unchanged
  · split_ifs
    · exact .unchanged
    · exact .unchanged
    · refine .answered (modTag_orderly fun k authored lost => ?_)
      cases authored
      exact nomatch serving.live.symm.trans lost

theorem effectFreeTag_leaves (index : Byte) : EffectKeeps c (effectFreeTag c index) := by
  intro s _
  unfold effectFreeTag
  dsimp only
  split
  · exact .unchanged
  · split_ifs
    iterate 3 exact .unchanged
    exact .answered (modTag_orderly fun k authored => nomatch authored)

end

/-! ### Flags, saves and restarts (R159, R166, R171, R172) -/

section
variable (c : CpId)

theorem effectClearFaults_leaves (selection : BitVec 64) : EffectKeeps c (effectClearFaults selection) := by
  intro s _
  unfold effectClearFaults
  split
  · exact .unchanged
  · exact .answered (clearFlags_orderly s _)

/-- R166: the caller's slot stays EXECUTING while its save is in progress; no other port's is. -/
theorem effectSaveScene_leaves : EffectKeeps c (effectSaveScene c) := by
  intro s serving
  unfold effectSaveScene
  split_ifs with saving
  · exact .unchanged
  · exact .unchanged
  · have torn := And.intro (rfl : StoreContent.torn = .torn) serving.running
    refine ⟨id, id, fun some => (nomatch some), fun _ fits => ⟨fun k => ?_, fun _ => torn⟩⟩
    show (s.ports.look k).slot.isExecuting = true ↔ _
    by_cases own : k = c
    · subst own
      exact iff_of_true serving.executing ⟨_, rfl, rfl⟩
    · rw [fits.slots k own]
      refine iff_of_false (fun ⟨v, busy, _⟩ => saving (by rw [busy]; rfl)) ?_
      rintro ⟨v, begun, caller⟩
      cases begun
      exact own caller.symm

theorem restartChecks_leaves {effect : Effect}
    (h : ∀ s, Serving c s → s.saving = none → Leaves c s (effect s)) :
    EffectKeeps c (restartChecks c effect) := by
  intro s serving
  unfold restartChecks
  split_ifs with junior busy
  · exact .unchanged
  · exact .unchanged
  · exact h s serving (by simpa using busy)

/-- R171: start-up has begun, and there is no answer. -/
theorem restartFull_leaves (straps : BitVec 2) (s : State) : Leaves c s (restartFull straps s, none) := by
  have keeps := restartFull_keeps s straps
  exact ⟨keeps.lost, keeps.conditions, fun some => (nomatch some), fun _ _ => restartFull_saveForm s straps⟩

/-- R172: every slot is EMPTY and every port SILENT. -/
theorem restartRetain_leaves (s : State) (idle : s.saving = none) {r : Reply} :
    Leaves c s (restartRetain s, some r) := by
  have calm := restartRetain_calm s
  refine ⟨fun _ => calm.holds.lostForm (lostForm_of_unlost fun k lost => ?_),
    fun _ => restartRetain_conditionForm s, fun _ _ => ?_, fun none => (nomatch none)⟩
  · exact nomatch (portsRestarted_port s k).2.symm.trans lost
  · have unsaved : (restartRetain s).saving = none := calm.slots.saving.trans idle
    refine ⟨fun k _ => ?_, fun v saving => (nomatch unsaved.symm.trans saving), fun busy => ?_⟩
    · rw [calm.slots.slots, (portsRestarted_port s k).1, unsaved]
      simp [Slot.isExecuting]
    · rw [unsaved] at busy
      cases busy

theorem restartRetain_effect_leaves (mode : Byte) : EffectKeeps c
    (if mode = 0 then restartChecks c fun s => answer [] (restartRetain s) else refuse .badArg) := by
  split
  · exact restartChecks_leaves c fun s _ idle => restartRetain_leaves c s idle
  · exact fun _ _ => .unchanged

end

/-! ## The step -/

/-- Every command answers a next state in which the forms are kept. -/
def Keeps (o : Host.Outcome State Fault Refusal) (s : State) : Prop := ∃ t, o = .next t ∧ KeepsForms s t

theorem Keeps.next {s t : State} (h : KeepsForms s t) : Keeps (.next t) s := ⟨t, rfl, h⟩

theorem Keeps.calm {s t : State} (h : Calm s t) : Keeps (.next t) s := .next h.keeps

/-- A command that a control port has been given keeps what its effect keeps. -/
theorem Keeps.of_command {c : CpId} {effect : Effect} (h : EffectKeeps c effect) (code tag : Byte) (s : State) :
    Keeps (.next (command c code tag effect s)) s := .next (command_keeps h code tag s)

theorem exec_keeps (i : Instr) (s : State) : Keeps (exec i s) s :=
  match i with
  | .powerUp straps => .next (powerUp_keeps s straps)
  | .resetNLow => .next (resetNLow_keeps s)
  | .resetNRelease straps => .next (resetNRelease_keeps s straps)
  | .powerLoss => .next (blockReset_keeps s _ _ _ _ _ _ _)
  | .sceneLoad => .next (sceneLoad_keeps s)
  | .inputFrameStart l => .calm (inputFrameStart_calm s l)
  | .lateFrameStart l => .calm (lateFrameStart_calm s l)
  | .candidateLapse l => .calm (ite_relates _ _ _ _ _ (modLane_calm s l _) (.refl s))
  | .frameStart l => .calm (ite_relates _ _ _ _ _ (frameStart_calm s l) (.refl s))
  | .coastExpiry l => .calm (ite_relates _ _ _ _ _ (enterParked_calm s l .coastExpiry) (.refl s))
  | .switchPoint l => .calm (switchPoint_calm s l)
  | .take l => .calm (take_calm s l)
  | .soundCell l words => .calm (soundCell_calm s l words)
  | .cellLine l line => .calm (cellLine_calm s l line)
  | .wordClockFrameStart p xs readFirst => .calm (wordClockFrameStart_calm s p xs readFirst)
  | .fadeEnd d => .calm (modEntry_calm s d _)
  | .portClockLost p => .calm (portClockLost_calm s p)
  | .internalTimerPeriod p readFirst => .calm (internalTimerPeriod_calm s p readFirst)
  | .portRegain p => .calm (portRegain_calm s p)
  | .scrubVisit => .calm (scrubVisit_calm s)
  | .entryUpset d u => .calm (entryUpset_calm s d u)
  | .portLate c => .next (portLate_orderly c s).keeps
  | .portLost c => .next (portLost_orderly c s).keeps
  | .saveComplete readBack => .next (saveComplete_keeps s readBack)
  | .saveTimeout => .next (saveTimeout_keeps s)
  | .chipSelectFall c => .calm (chipSelectFall_calm s c)
  | .summaryPoll c bytes => .calm (summaryPoll_calm s c bytes)
  | .readResponse c clocked => .next (readResponse_keeps s c clocked)
  | .badBlock c bytes => .next (badBlock_keeps c bytes s)
  | .overrun c _ => .next (writeEnds_keeps s c _ _ _ fun u _ => .refl u)
  | .starting c _ => .next (writeEnds_keeps s c _ _ _ fun u _ => .refl u)
  | .undefinedCommand _ code tag => .of_command (fun _ _ => .unchanged) code tag s
  | .keepalive _ tag => .of_command (fun _ _ => .unchanged) _ tag s
  | .readStatus _ tag => .of_command (fun _ _ => .unchanged) _ tag s
  | .clearNotices c tag notices => .of_command (effectClearNotices_leaves c notices) _ tag s
  | .setNoticeMask c tag n f => .of_command (effectSetNoticeMask_leaves c n f) _ tag s
  | .claim c tag first count => .of_command (effectClaim_leaves c first count) _ tag s
  | .release c tag first count => .of_command (effectRelease_leaves c first count) _ tag s
  | .seize c tag first count => .of_command (effectSeize_leaves c first count) _ tag s
  | .readClaims c tag first count => .of_command (effectReadClaims_leaves c first count) _ tag s
  | .setWatch c tag late lost => .of_command (effectSetWatch_leaves c late lost) _ tag s
  | .laneEnable c tag lane => .of_command (laneCommand_leaves c lane _ _ laneEnable_calm) _ tag s
  | .laneDisable c tag lane => .of_command (laneCommand_leaves c lane _ _ laneDisable_calm) _ tag s
  | .lanePark c tag lane => .of_command (laneCommand_leaves c lane _ _ lanePark_calm) _ tag s
  | .laneResume c tag lane => .of_command (laneCommand_leaves c lane _ _ laneResume_calm) _ tag s
  | .setEmit c tag lane _ => .of_command (laneCommand_leaves c lane _ _ fun s l => modLane_calm s l _) _ tag s
  | .setStrip c tag lane _ => .of_command (laneCommand_leaves c lane _ _ fun s l => modLane_calm s l _) _ tag s
  | .setParkMode c tag lane mode =>
    .of_command (laneCommand_leaves c lane _ _ fun s l => setParkMode_calm s mode l) _ tag s
  | .setCoastLimit c tag lane _ => .of_command (laneCommand_leaves c lane _ _ fun s l => modLane_calm s l _) _ tag s
  | .readLane c tag lane part track => .of_command (effectReadLane_leaves c lane part track) _ tag s
  | .stage c tag dest source fade tagRef delay =>
    .of_command (effectStage_leaves c dest source fade tagRef delay) _ tag s
  | .unstage c tag dest => .of_command (effectUnstage_leaves c dest) _ tag s
  | .close c tag lane delay => .of_command (effectClose_leaves c lane delay) _ tag s
  | .cancel c tag lane position closure => .of_command (effectCancel_leaves c lane position closure) _ tag s
  | .hold c tag lane => .of_command (effectHold_leaves c true lane) _ tag s
  | .run c tag lane => .of_command (effectHold_leaves c false lane) _ tag s
  | .readQueue c tag lane => .of_command (effectReadQueue_leaves c lane) _ tag s
  | .readEntry c tag dest => .of_command (effectReadEntry_leaves c dest) _ tag s
  | .nudge c tag dest amount => .of_command (effectNudge_leaves c dest amount) _ tag s
  | .checkTest c tag dest => .of_command (effectCheckTest_leaves c dest) _ tag s
  | .readPort c tag port => .of_command (effectReadPort_leaves c port) _ tag s
  | .setPortRef c tag port lane => .of_command (effectSetPortRef_leaves c port lane) _ tag s
  | .setTone c tag level => .of_command (effectSetTone_leaves c level) _ tag s
  | .writeTag c tag index kind length label user =>
    .of_command (effectWriteTag_leaves c index kind length label user) _ tag s
  | .freeTag c tag index => .of_command (effectFreeTag_leaves c index) _ tag s
  | .readTag c tag index => .of_command (effectReadTag_leaves c index) _ tag s
  | .readFaults _ tag => .of_command (fun _ _ => .unchanged) _ tag s
  | .clearFaults c tag selection => .of_command (effectClearFaults_leaves c selection) _ tag s
  | .setLineMask c tag mask => .of_command (effectSetLineMask_leaves c mask) _ tag s
  | .saveScene c tag => .of_command (effectSaveScene_leaves c) _ tag s
  | .setGuard c tag value => .of_command (effectSetGuard_leaves c value) _ tag s
  | .restartFull c tag straps =>
    .of_command (restartChecks_leaves c fun s _ _ => restartFull_leaves c straps s) _ tag s
  | .restartRetain c tag mode => .of_command (restartRetain_effect_leaves c mode) _ tag s

/-- The clock is none of what the forms speak of (log 1, log 3). -/
theorem idle_calm (s : State) : Calm s (idle s) := by
  unfold idle
  split <;> exact .same rfl rfl rfl rfl

/-- A step is the clock or one command. -/
theorem step_keeps {s t : State} (stepped : step s = .next t) : KeepsForms s t := by
  unfold step at stepped
  split at stepped
  · cases stepped
    exact (idle_calm s).keeps
  · rename_i c rest _
    obtain ⟨u, ran, keeps⟩ := exec_keeps c { s with pending := rest }
    cases ran.symm.trans stepped
    exact ⟨keeps.lost, keeps.save, keeps.conditions⟩

/-- Settles O9: `step_keeps`, each form by itself. -/
theorem everyStepKeepsSlotAndFlagForms : Obligations.EveryStepKeepsSlotAndFlagForms :=
  ⟨fun _ _ form stepped => (step_keeps stepped).lost form, fun _ _ form stepped => (step_keeps stepped).save form,
    fun _ _ form stepped => (step_keeps stepped).conditions form⟩

end Sys2Proof.Machine.FormsKept
end

section
/-! PROOFS. The counts of the Tag Pool while changes are applied and end (R84, R113, R138, R140): each count is that of
the entries and of the changes that still wait, after every change of a batch. -/

namespace Sys2Proof.Machine.CountsKept

open ChangesApplied Withdrawals

/-! ## Counts and what they count -/

/-- The entries whose counted reference names record `n`. -/
def entryNamings (s : State) (n : TagId) : Nat :=
  (List.finRange 256).countP fun d => decide ((s.entries.look d).counted = TagRef.record n)

/-- The staged and queued changes of every lane that name record `n`. -/
def waitingNamings (s : State) (n : TagId) : Nat := ∑ l : LaneId, namedBy n (s.takes.look l).allChanges

/-- Every count is that of the entries and of `waits`, and a free record's is 0 (R138, R140). -/
def Counted (waits : TagId → Nat) (s : State) : Prop :=
  ∀ n, (s.tags.look n).count = entryNamings s n + waits n ∧
    ((s.tags.look n).content = none → (s.tags.look n).count = 0)

theorem countForm_iff (s : State) : CountForm s ↔ Counted (waitingNamings s) s := by
  unfold CountForm Counted
  simp only [namings_eq]
  rfl

section
variable {waits : TagId → Nat} {s t : State}

/-- The counts hang on records and counted references alone. -/
theorem Counted.congr (h : Counted waits s) (tags : t.tags = s.tags)
    (counted : ∀ d, (t.entries.look d).counted = (s.entries.look d).counted) : Counted waits t := by
  intro n
  have entries : entryNamings t n = entryNamings s n := by
    unfold entryNamings
    simp only [counted]
  rw [tags, entries]
  exact h n

/-- R113: changes that end take their namings with them. -/
theorem Counted.endChanges {cs : List Change} (h : Counted (fun n => waits n + namedBy n cs) s) :
    Counted waits (endChanges cs s) := by
  intro n
  obtain ⟨content, count⟩ := endChanges_look cs s n
  obtain ⟨g, frame⟩ := endChanges_frame cs s
  have entries : entryNamings (Machine.endChanges cs s) n = entryNamings s n := by
    rw [frame]
    rfl
  obtain ⟨named, free⟩ := h n
  rw [content, count, entries, named]
  refine ⟨by simp only [← Nat.add_assoc, Nat.add_sub_cancel], fun unwritten => ?_⟩
  rw [← named, free unwritten, Nat.zero_sub]

/-- A naming begins of a record that is written. -/
theorem Counted.countUp {r : TagRef} (h : Counted waits s)
    (written : ∀ n, r = .record n → (s.tags.look n).content ≠ none) :
    Counted (fun n => waits n + if r = .record n then 1 else 0) (countUp r s) := by
  intro n
  obtain ⟨content, count⟩ := countUp_look r s n
  obtain ⟨g, frame⟩ := countUp_frame r s
  have entries : entryNamings (Machine.countUp r s) n = entryNamings s n := by
    rw [frame]
    rfl
  obtain ⟨named, free⟩ := h n
  rw [content, count, entries, named]
  refine ⟨Nat.add_assoc .., fun unwritten => ?_⟩
  rw [← named, free unwritten, if_neg fun names => written n names unwritten]

end

/-! ## Counts under an applied change (R84) -/

section
variable (s : State)

theorem entryNamings_eq_sum (n : TagId) :
    entryNamings s n = ∑ d : DestId, if (s.entries.look d).counted = .record n then 1 else 0 := by
  rw [entryNamings, List.countP_eq_length_filter, Finset.sum_boole, Nat.cast_id, ← List.toFinset_card_of_nodup
    ((List.nodup_finRange 256).filter _)]
  congr 1
  ext d
  simp

/-- The namings follow the counted reference of the one entry that changes. -/
theorem entryNamings_modEntry (d : DestId) (f : Entry → Entry) (n : TagId) :
    entryNamings (modEntry d f s) n + (if (s.entries.look d).counted = .record n then 1 else 0) =
      entryNamings s n + if (f (s.entries.look d)).counted = .record n then 1 else 0 := by
  have split (g : DestId → Nat) : ∑ k, g k = g d + ∑ k ∈ Finset.univ.erase d, g k :=
    (Finset.add_sum_erase _ _ (Finset.mem_univ d)).symm
  have others : ∑ k ∈ Finset.univ.erase d, (if ((modEntry d f s).entries.look k).counted = .record n then 1 else 0) =
      ∑ k ∈ Finset.univ.erase d, if (s.entries.look k).counted = .record n then 1 else 0 :=
    Finset.sum_congr rfl fun k mem => by rw [modEntry_look_ne _ _ (Finset.ne_of_mem_erase mem).symm]
  rw [entryNamings_eq_sum, entryNamings_eq_sum, split, split, others, modEntry_look_self]
  omega

end

section
variable {waits : TagId → Nat} {s : State} {x : Change}

theorem namedBy_cons (n : TagId) (x : Change) (cs : List Change) :
    namedBy n (x :: cs) = namedBy n cs + if x.tag = some (.record n) then 1 else 0 := by
  simp only [namedBy, List.countP_cons, decide_eq_true_eq]

/-- R84: the reference that an applied change leaves names a written record or none: one that the change carries is
counted for the change itself. -/
theorem newTagRef_isWritten {e : Entry} {n : TagId}
    (carried : x.tag = some (.record n) → (s.tags.look n).content ≠ none)
    (names : (newTagRef s e x).2 = .record n) : (s.tags.look n).content ≠ none := by
  unfold newTagRef at names
  split at names
  · rename_i r tag
    exact carried (tag.trans (congrArg some names))
  · split at names
    · cases names
    · split_ifs at names with written
      cases names
      exact Option.isSome_iff_ne_none.mp written
    · rename_i other _
      exact absurd names (other n)

/-- R84: an applied change that is still counted moves a count from the old counted reference to the new one. -/
theorem Counted.applyChange (h : Counted waits s) (still : ∀ n, x.tag = some (.record n) → 0 < waits n) :
    Counted waits (applyChange x s) := by
  intro n
  have entries := entryNamings_modEntry s x.dest (appliedEntry s x) n
  rw [(appliedEntry_ref s x (s.entries.look x.dest)).2] at entries
  obtain ⟨content, count⟩ := moveCount_moves (modEntry x.dest (appliedEntry s x) s)
    (s.entries.look x.dest).counted (newTagRef s (s.entries.look x.dest) x).2 n
  have same : entryNamings (Machine.applyChange x s) n = entryNamings (modEntry x.dest (appliedEntry s x) s) n := by
    unfold entryNamings
    rw [applyChange_entries]
  obtain ⟨named, free⟩ := h n
  have written (names : (newTagRef s (s.entries.look x.dest) x).2 = .record n) :
      (s.tags.look n).content ≠ none := by
    refine newTagRef_isWritten (fun carried unwritten => ?_) names
    have waits := still n carried
    have unnamed := free unwritten
    omega
  rw [modEntry_tags] at content count
  show ((moveCount _ _ _).tags.look n).count = _ ∧ (((moveCount _ _ _).tags.look n).content = none →
    ((moveCount _ _ _).tags.look n).count = 0)
  rw [same, content, count]
  split_ifs with kept old new new
  · rw [kept] at entries
    exact ⟨by omega, free⟩
  · exact absurd (old.trans new.symm) kept
  · rw [if_pos old, if_neg new] at entries
    exact ⟨by omega, fun unwritten => by rw [free unwritten]⟩
  · rw [if_neg old, if_pos new] at entries
    exact ⟨by omega, fun unwritten => absurd unwritten (written new)⟩
  · rw [if_neg old, if_neg new] at entries
    exact ⟨by omega, free⟩

/-- R122: a batch is applied change by change, and each ends. -/
theorem Counted.applyChanges {cs : List Change} (h : Counted (fun n => waits n + namedBy n cs) s) :
    Counted waits (applyChanges cs s) := by
  induction cs generalizing s with
  | nil => exact h
  | cons x cs ih =>
    refine ih ?_
    have regrouped : (fun n => waits n + namedBy n (x :: cs)) = fun n => waits n + namedBy n cs + namedBy n [x] := by
      funext n
      rw [namedBy_cons, namedBy_cons, Nat.add_assoc]
      simp [namedBy]
    rw [regrouped] at h
    refine Counted.endChanges (cs := [x]) (h.applyChange fun n carried => ?_)
    rw [namedBy_cons, if_pos carried]
    exact Nat.succ_pos _

end

/-! ## Counts when one lane's changes end (R127, R140) -/

section
variable {s : State}

theorem waitingNamings_modTake (l : LaneId) (f : TakeUnit → TakeUnit) (s : State) (n : TagId) :
    waitingNamings (modTake l f s) n + namedBy n (s.takes.look l).allChanges =
      waitingNamings s n + namedBy n (f (s.takes.look l)).allChanges := by
  have lane := namings_modTake l f s n
  have entries : entryNamings (modTake l f s) n = entryNamings s n := rfl
  unfold entryNamings at entries
  rw [namings_eq, namings_eq] at lane
  unfold waitingNamings
  omega

/-- What leaves a lane's Take Unit is named `gone`. -/
theorem waitingNamings_left {l : LaneId} {f : TakeUnit → TakeUnit} {gone : List Change}
    (left : ∀ n, namedBy n (s.takes.look l).allChanges =
      namedBy n (f (s.takes.look l)).allChanges + namedBy n gone) :
    waitingNamings s = fun n => waitingNamings (modTake l f s) n + namedBy n gone := by
  funext n
  have lane := waitingNamings_modTake l f s n
  have leaves := left n
  omega

/-- R127, R140: changes leave one lane's Take Unit and end. -/
theorem countForm_endChanges {l : LaneId} {f : TakeUnit → TakeUnit} {gone : List Change}
    (left : ∀ n, namedBy n (s.takes.look l).allChanges =
      namedBy n (f (s.takes.look l)).allChanges + namedBy n gone)
    (form : CountForm s) : CountForm (endChanges gone (modTake l f s)) := by
  rw [countForm_iff, waitingNamings_left left] at form
  have ended : Counted (waitingNamings (modTake l f s)) (endChanges gone (modTake l f s)) :=
    (form.congr (t := modTake l f s) rfl fun _ => rfl).endChanges
  have waiting : waitingNamings (endChanges gone (modTake l f s)) = waitingNamings (modTake l f s) := by
    obtain ⟨g, frame⟩ := endChanges_frame gone (modTake l f s)
    rw [frame]
    rfl
  rwa [countForm_iff, waiting]

/-- R122: of the waiting changes of a lane, those of the head leave with it. -/
theorem namedBy_dropHead {t : TakeUnit} {b : Batch} {rest : List Batch} (queue : t.queue = b :: rest) (n : TagId) :
    namedBy n t.allChanges = namedBy n t.dropHead.allChanges + namedBy n b.changes := by
  rw [TakeUnit.dropHead, EntriesKept.allChanges_reload]
  simp only [TakeUnit.allChanges, queue, List.tail_cons, List.flatMap_cons, namedBy_append]
  omega

/-- R122, R140: the head batch is applied and leaves. -/
theorem countForm_applyHead (l : LaneId) (form : CountForm s) : CountForm (applyHead l s) := by
  unfold applyHead
  split
  · exact form
  · rename_i b rest queue
    rw [countForm_iff, waitingNamings_left (namedBy_dropHead queue)] at form
    have applied := form.applyChanges
    obtain ⟨e, g, frame⟩ := applyChanges_frame b.changes s
    have waiting : waitingNamings (setNotice b.owner .applied
        (modTake l TakeUnit.dropHead (applyChanges b.changes s))) =
        waitingNamings (modTake l TakeUnit.dropHead s) := by
      rw [frame]
      rfl
    rw [countForm_iff, waiting]
    exact applied.congr rfl fun _ => rfl

end

end Sys2Proof.Machine.CountsKept
end

section
/-! PROOFS. TAKE (R122): what a batch leaves of the patch table and of the records, whatever was applied before it in
the same event, and what the head leaves behind it in its lane's Take Unit. -/

namespace Sys2Proof.Machine.TakesApplied

open ChangesApplied CountsKept Withdrawals

/-! ## What an application hangs on (R81 to R86) -/

/-- What the application of a change looks at beside its entry is as it was: lane states, presence and kept blocks,
audio ports, write indices, and the contents of the records. -/
structure SameSources (s t : State) : Prop where
  states : ∀ l, (t.lanes.look l).state = (s.lanes.look l).state
  readers : t.readers = s.readers
  saps : t.saps = s.saps
  writeIndex : t.writeIndex = s.writeIndex
  content : ∀ n, (t.tags.look n).content = (s.tags.look n).content

section
variable {s t u : State}

theorem SameSources.refl (s : State) : SameSources s s := ⟨fun _ => rfl, rfl, rfl, rfl, fun _ => rfl⟩

theorem SameSources.trans (h : SameSources s t) (k : SameSources t u) : SameSources s u :=
  ⟨fun l => (k.states l).trans (h.states l), k.readers.trans h.readers, k.saps.trans h.saps,
    k.writeIndex.trans h.writeIndex, fun n => (k.content n).trans (h.content n)⟩

/-- A change of a lane that leaves its state. -/
theorem modLane_sources (l : LaneId) {f : Lane → Lane} (s : State)
    (state : (f (s.lanes.look l)).state = (s.lanes.look l).state) : SameSources s (modLane l f s) := by
  refine ⟨fun k => ?_, rfl, rfl, rfl, fun _ => rfl⟩
  rw [modLane_look]
  split
  · rename_i own
    rw [state, own]
  · rfl

theorem SameSources.srcValid (h : SameSources s t) : srcValid t = srcValid s := by
  funext src
  simp only [Machine.srcValid, trackPresence, h.states, h.readers, h.saps]

theorem SameSources.passBlock (h : SameSources s t) : passBlock t = passBlock s := by
  funext src
  simp only [Machine.passBlock, h.srcValid, h.readers]

theorem SameSources.kindInForce (h : SameSources s t) : kindInForce t = kindInForce s := by
  funext src ref
  cases ref with
  | none => rfl
  | record n => simp only [Machine.kindInForce, h.content]
  | pass => simp only [Machine.kindInForce, h.passBlock]

theorem SameSources.newTagRef (h : SameSources s t) : newTagRef t = newTagRef s := by
  funext e x
  simp only [Machine.newTagRef, h.content]

theorem SameSources.effectiveFade (h : SameSources s t) : effectiveFade t = effectiveFade s := by
  funext e x
  simp only [Machine.effectiveFade, h.kindInForce, h.newTagRef]

theorem SameSources.newFade (h : SameSources s t) : newFade t = newFade s := by
  funext e x
  simp only [Machine.newFade, h.effectiveFade]

theorem SameSources.aligned (h : SameSources s t) : Entry.aligned t = Entry.aligned s := by
  funext e
  simp only [Entry.aligned, alignedIndex, h.writeIndex]

/-- An applied change leaves what it would have left before. -/
theorem SameSources.appliedEntry (h : SameSources s t) : appliedEntry t = appliedEntry s := by
  funext x e
  simp only [Machine.appliedEntry, h.newTagRef, h.newFade, h.aligned]

end

/-! ## A batch (R122) -/

section
variable (x : Change) (cs : List Change) (s : State)

/-- R84: one change that is applied and ends leaves the sources of every other. -/
theorem appliedEnded_sources : SameSources s (endChange x (applyChange x s)) := by
  obtain ⟨e, g, frame⟩ := applyChange_frame x s
  obtain ⟨g', ended⟩ := countDown_frame (x.tag.getD .none) (applyChange x s)
  have content (n : TagId) : ((endChange x (applyChange x s)).tags.look n).content = (s.tags.look n).content :=
    (countDown_look _ _ n).1.trans (moveCount_moves (modEntry x.dest (appliedEntry s x) s) _ _ n).1
  rw [endChange, ended, frame] at content ⊢
  exact ⟨fun _ => rfl, rfl, rfl, rfl, content⟩

theorem appliedEnded_entries : (endChange x (applyChange x s)).entries =
    (modEntry x.dest (appliedEntry s x) s).entries := by
  obtain ⟨g, ended⟩ := countDown_frame (x.tag.getD .none) (applyChange x s)
  rw [endChange, ended, ← applyChange_entries]

theorem applyChanges_sources : SameSources s (applyChanges cs s) :=
  foldl_relates _ SameSources.refl (fun _ _ _ => .trans) (fun s x => endChange x (applyChange x s))
    (fun s x => appliedEnded_sources x s) cs s

end

/-- R122: an entry that no change of a batch names stays. -/
theorem applyChanges_other {cs : List Change} {d : DestId} (s : State) (unnamed : ∀ x ∈ cs, x.dest ≠ d) :
    (applyChanges cs s).entries.look d = s.entries.look d := by
  induction cs generalizing s with
  | nil => rfl
  | cons x cs ih =>
    have later := ih (endChange x (applyChange x s)) fun y mem => unnamed y (List.mem_cons_of_mem x mem)
    refine later.trans ?_
    rw [appliedEnded_entries]
    exact modEntry_look_ne _ _ (unnamed x List.mem_cons_self)

/-- R117, R122: each change of a batch is applied to the entry that stood before the batch. -/
theorem applyChanges_named {cs : List Change} {x : Change} (s : State) (once : (cs.map (·.dest)).Nodup) (mem : x ∈ cs) :
    (applyChanges cs s).entries.look x.dest = appliedEntry s x (s.entries.look x.dest) := by
  induction cs generalizing s with
  | nil => cases mem
  | cons y cs ih =>
    obtain ⟨apart, once⟩ := List.nodup_cons.mp once
    have other {z : Change} (later : z ∈ cs) : z.dest ≠ y.dest :=
      fun same => apart (List.mem_map.mpr ⟨z, later, same⟩)
    show (applyChanges cs (endChange y (applyChange y s))).entries.look x.dest = _
    rcases List.mem_cons.mp mem with rfl | later
    · rw [applyChanges_other _ fun z => other, appliedEnded_entries]
      exact modEntry_look_self _ _ _
    · rw [ih _ once later, (appliedEnded_sources y s).appliedEntry, appliedEnded_entries,
        modEntry_look_ne _ _ (other later).symm]

/-! ## The head of a queue (R122) -/

/-- The timer as it is loaded from a queue (R122, R127). -/
def timerFrom (q : List Batch) : TakeTimer :=
  match q with
  | [] => .idle
  | h :: _ => .counting h.delay

theorem reload_timer (t : TakeUnit) : t.reload.timer = timerFrom t.queue := by
  unfold TakeUnit.reload timerFrom
  split <;> rename_i queue <;> rw [queue]

section
variable {l : LaneId} {b : Batch} {rest : List Batch} {s : State}

theorem applyHead_cons (queue : (s.takes.look l).queue = b :: rest) : applyHead l s =
    setNotice b.owner .applied (modTake l TakeUnit.dropHead (applyChanges b.changes s)) := by
  rw [applyHead, queue]

/-- R122: with no hold and no head that waits, the head leaves and the timer is loaded from the next batch. -/
theorem dropHead_unheld {t : TakeUnit} (queue : t.queue = b :: rest) (hold : t.holdCommand = false)
    (fresh : t.freshHead = false) : t.dropHead = { t with queue := rest, timer := timerFrom rest } := by
  cases rest with
  | nil => simp [TakeUnit.dropHead, TakeUnit.reload, timerFrom, queue, hold, fresh]
  | cons h rest => simp [TakeUnit.dropHead, TakeUnit.reload, timerFrom, queue, fresh]

/-- What the application of a head batch leaves of an engine whose sources are those of `s`. -/
theorem applyHead_applied {u : State} (sources : SameSources s u) (entries : u.entries = s.entries)
    (counts : CountForm s → CountForm u) (queue : (u.takes.look l).queue = b :: rest) :
    BatchApplied b s (applyHead l u) := by
  have applied : (applyHead l u).entries = (applyChanges b.changes u).entries := by rw [applyHead_cons queue]; rfl
  have tags : (applyHead l u).tags = (applyChanges b.changes u).tags := by rw [applyHead_cons queue]; rfl
  refine ⟨fun once x mem => ?_, fun n => ?_, fun _ form => countForm_applyHead l (counts form)⟩
  · rw [applied, applyChanges_named u once mem, sources.appliedEntry, entries, applyChange_look]
    exact ⟨rfl, appliedEntry_applied s x _⟩
  · rw [tags, (applyChanges_sources b.changes u).content, sources.content]

end

/-- R120, R122: what is due is held by no one and waits for no other switch point. -/
theorem takeDue_unheld {l : LaneId} {s : State} (due : takeDue s l = true) :
    (s.takes.look l).holdCommand = false ∧ (s.takes.look l).freshHead = false := by
  simp only [takeDue, TakeUnit.held, Bool.and_eq_true, Bool.not_eq_true', Bool.or_eq_false_iff] at due
  obtain ⟨⟨⟨_, command, _⟩, fresh⟩, _⟩ := due
  exact ⟨command, fresh⟩

/-- The switch point's take is done (R122). -/
def takeDone (l : LaneId) (s : State) : State := modLane l (fun n => { n with takePending := false }) s

theorem takeDone_look_self (l : LaneId) (s : State) :
    (takeDone l s).lanes.look l = { s.lanes.look l with takePending := false } := modLane_look_self l _ s

theorem takeDone_look_ne {l k : LaneId} (s : State) (other : k ≠ l) :
    (takeDone l s).lanes.look k = s.lanes.look k := modLane_look_ne _ s other.symm

/-- Settles O35: the batch by `applyHead_applied`, the queue by `dropHead_unheld`. -/
theorem takeAppliesTheHeadBatch : Obligations.TakeAppliesTheHeadBatch := by
  intro l b rest s due queue
  obtain ⟨hold, fresh⟩ := takeDue_unheld due
  have sources : SameSources s (takeDone l s) := modLane_sources l s rfl
  have batch : BatchApplied b s (take l s) :=
    take_due due ▸ applyHead_applied sources rfl (countForm_congr rfl rfl (fun _ => rfl) fun _ => id) queue
  have taken := (take_due due).trans (applyHead_cons (s := takeDone l s) queue)
  have others (d : DestId) (unnamed : ∀ x ∈ b.changes, x.dest ≠ d) :=
    applyChanges_other (takeDone l s) unnamed
  obtain ⟨e, g, frame⟩ := applyChanges_frame b.changes (takeDone l s)
  rw [frame] at taken others
  refine ⟨take l s, rfl, ?_, ?_, fun k other => ?_, ?_, fun k other => ?_, ?_, fun k other => ?_, ?_, batch⟩
  all_goals rw [taken]
  · rfl
  · exact takeDone_look_self l s
  · exact takeDone_look_ne s other
  · exact (modTake_look_self l _ s).trans (dropHead_unheld queue hold fresh)
  · exact modTake_look_ne _ s other.symm
  · exact modPort_look_self _ _ _
  · exact modPort_look_ne _ _ other.symm
  · exact others

end Sys2Proof.Machine.TakesApplied
end

section
/-! PROOFS. The waiting changes of a lane, as its commands move them (R116 to R119, R126 to R129): what a staging list
holds for a destination, which changes of a port are left, and which namings of a record leave with those that go. -/

namespace Sys2Proof.Machine.WaitingMoves

open Withdrawals EntriesKept CountsKept

/-! ## The changes of a list for a destination (R116, R118) -/

section
variable {d : DestId} {cs a b : List Change} {x y : Change}

theorem stagesDest_iff : stagesDest d cs = true ↔ ∃ y ∈ cs, y.dest = d := by
  simp [stagesDest]

theorem stagesDest_absent (absent : ∀ y ∈ cs, y.dest ≠ d) : stagesDest d cs = false := by
  rw [← Bool.not_eq_true, stagesDest_iff]
  rintro ⟨y, mem, dest⟩
  exact absent y mem dest

theorem changesFor_absent (absent : ∀ y ∈ cs, y.dest ≠ d) : changesFor d cs = [] :=
  List.filter_eq_nil_iff.mpr fun y mem => by simpa using absent y mem

theorem changesNotFor_absent (absent : ∀ y ∈ cs, y.dest ≠ d) : changesNotFor d cs = cs :=
  List.filter_eq_self.mpr fun y mem => by simpa using absent y mem

/-- A change for a destination that the list does not name goes to its end. -/
theorem putChange_absent (absent : ∀ y ∈ cs, y.dest ≠ x.dest) : putChange x cs = cs ++ [x] :=
  if_neg (by rw [stagesDest_absent absent]; decide)

section
variable (dest : y.dest = d) (others : ∀ z ∈ a ++ b, z.dest ≠ d)
include dest

theorem stagesDest_split : stagesDest d (a ++ y :: b) = true := stagesDest_iff.mpr ⟨y, by simp, dest⟩

include others

theorem changesFor_split : changesFor d (a ++ y :: b) = [y] := by
  have before : changesFor d a = [] := changesFor_absent fun z mem => others z (List.mem_append_left b mem)
  have after : changesFor d b = [] := changesFor_absent fun z mem => others z (List.mem_append_right a mem)
  unfold changesFor at before after ⊢
  rw [List.filter_append, List.filter_cons_of_pos (by simpa using dest), before, after, List.nil_append]

theorem changesNotFor_split : changesNotFor d (a ++ y :: b) = a ++ b := by
  have rest : changesNotFor d (a ++ b) = a ++ b := changesNotFor_absent others
  unfold changesNotFor at rest ⊢
  rw [List.filter_append] at rest
  rw [List.filter_append, List.filter_cons_of_neg (by simpa using dest), rest]

end

/-- A change takes the place of the one that the list holds for its destination. -/
theorem putChange_split (dest : y.dest = x.dest) (others : ∀ z ∈ a ++ b, z.dest ≠ x.dest) :
    putChange x (a ++ y :: b) = a ++ x :: b := by
  have same {cs : List Change} (absent : ∀ z ∈ cs, z.dest ≠ x.dest) :
      (cs.map fun c => if c.dest = x.dest then x else c) = cs :=
    (List.map_congr_left fun z mem => if_neg (absent z mem)).trans (List.map_id' cs)
  unfold putChange
  rw [if_pos (stagesDest_split dest), List.map_append, List.map_cons, if_pos dest,
    same fun z mem => others z (List.mem_append_left b mem), same fun z mem => others z (List.mem_append_right a mem)]

/-- R117: a list that names each destination once holds no change for `d`, or one. -/
theorem absent_or_split (once : (cs.map (·.dest)).Nodup) (d : DestId) : (∀ y ∈ cs, y.dest ≠ d) ∨
    ∃ a y b, cs = a ++ y :: b ∧ y.dest = d ∧ ∀ z ∈ a ++ b, z.dest ≠ d := by
  by_cases absent : ∀ y ∈ cs, y.dest ≠ d
  · exact .inl absent
  · push Not at absent
    obtain ⟨y, mem, dest⟩ := absent
    obtain ⟨a, b, rfl⟩ := List.append_of_mem mem
    refine .inr ⟨a, y, b, rfl, dest, fun z other same => ?_⟩
    rw [List.map_append, List.map_cons, List.nodup_middle, List.nodup_cons, ← List.map_append] at once
    exact once.1 (List.mem_map.mpr ⟨z, other, same.trans dest.symm⟩)

/-- R117: a list that names each destination once still does when a change is put in. -/
theorem putChange_once (x : Change) (once : (cs.map (·.dest)).Nodup) : ((putChange x cs).map (·.dest)).Nodup := by
  rcases absent_or_split once x.dest with absent | ⟨a, y, b, rfl, dest, others⟩
  · rw [putChange_absent absent, List.map_append, List.map_singleton]
    refine List.nodup_append.mpr ⟨once, List.nodup_singleton _, fun e mem e' new same => ?_⟩
    obtain ⟨y, was, rfl⟩ := List.mem_map.mp mem
    exact absent y was (same.trans (List.mem_singleton.mp new))
  · rw [putChange_split dest others]
    rw [List.map_append, List.map_cons, dest] at once
    rwa [List.map_append, List.map_cons]

theorem mem_putChange {z : Change} (mem : z ∈ putChange x cs) : z = x ∨ z ∈ cs := by
  unfold putChange at mem
  split at mem
  · obtain ⟨w, was, rfl⟩ := List.mem_map.mp mem
    split
    · exact .inl rfl
    · exact .inr was
  · simpa [or_comm] using mem

/-- R140: a change that is put in brings its naming, and takes that of the change it replaces. -/
theorem namedBy_putChange (once : (cs.map (·.dest)).Nodup) (n : TagId) :
    namedBy n (putChange x cs) + namedBy n (changesFor x.dest cs) =
      namedBy n cs + if x.tag = some (.record n) then 1 else 0 := by
  rcases absent_or_split once x.dest with absent | ⟨a, y, b, rfl, dest, others⟩
  · rw [putChange_absent absent, changesFor_absent absent, namedBy_append, namedBy_cons]
    simp only [namedBy, List.countP_nil]
    omega
  · rw [putChange_split dest others, changesFor_split dest others]
    simp only [namedBy_append, namedBy_cons]
    simp only [namedBy, List.countP_nil]
    omega

/-- Each change of a list is for `d` or it is not. -/
theorem namedBy_notFor (d : DestId) (cs : List Change) (n : TagId) :
    namedBy n cs = namedBy n (changesNotFor d cs) + namedBy n (changesFor d cs) := by
  have split := List.countP_eq_countP_filter_add cs (fun x => decide (x.tag = some (.record n)))
    fun x => decide (x.dest ≠ d)
  rw [namedBy, split]
  congr 2
  unfold changesFor
  simp

end

/-! ## What is left of a lane's waiting changes -/

/-- No batch of a lane names a destination twice (R117). -/
def NamesOnce (t : TakeUnit) : Prop :=
  (∀ c, ((t.staging.look c).map (·.dest)).Nodup) ∧ ∀ b ∈ t.queue, (b.changes.map (·.dest)).Nodup

/-- From `t` to `u` no port has gained a change, and no batch a second one for a destination. -/
structure Within (t u : TakeUnit) : Prop where
  changes : ∀ k, changesBy u k ⊆ changesBy t k
  once : NamesOnce t → NamesOnce u

section
variable {t u v : TakeUnit}

theorem Within.refl (t : TakeUnit) : Within t t := ⟨fun _ => List.Subset.refl _, id⟩

theorem Within.trans (h : Within t u) (k : Within u v) : Within t v :=
  ⟨fun c _ mem => h.changes c (k.changes c mem), k.once ∘ h.once⟩

/-- Staging batches and queue as they were, whatever timer, holds and marks. -/
theorem Within.same (staging : u.staging = t.staging) (queue : u.queue = t.queue) : Within t u := by
  refine ⟨fun k => ?_, fun once => ?_⟩
  · rw [changesBy, changesBy, staging, queue]
    exact List.Subset.refl _
  · rw [NamesOnce, staging, queue]
    exact once

/-- Each batch is part of one of the same port that was there. -/
theorem Within.parts (staging : ∀ c, (u.staging.look c).Sublist (t.staging.look c))
    (queue : ∀ b ∈ u.queue, ∃ b' ∈ t.queue, b.owner = b'.owner ∧ b.changes.Sublist b'.changes) : Within t u := by
  refine ⟨fun k x mem => ?_, fun ⟨staged, queued⟩ => ⟨fun c => ?_, fun b mem => ?_⟩⟩
  · rcases mem_changesBy.mp mem with inStaging | ⟨b, inQueue, rfl, inBatch⟩
    · exact mem_changesBy.mpr (.inl ((staging k).subset inStaging))
    · obtain ⟨b', was, owner, part⟩ := queue b inQueue
      exact mem_changesBy.mpr (.inr ⟨b', was, owner.symm, part.subset inBatch⟩)
  · exact (staged c).sublist ((staging c).map _)
  · obtain ⟨b', was, _, part⟩ := queue b mem
    exact (queued b' was).sublist (part.map _)

theorem Within.reload (t : TakeUnit) : Within t t.reload := by
  obtain ⟨m, h, f, frame⟩ := t.reload_frame
  rw [frame]
  exact .same rfl rfl

/-- A waiting change belongs to some port. -/
theorem mem_allChanges_iff {x : Change} : x ∈ t.allChanges ↔ ∃ k, x ∈ changesBy t k := by
  rw [mem_allChanges]
  simp only [mem_changesBy, exists_or]
  refine or_congr Iff.rfl ⟨?_, ?_⟩
  · rintro ⟨b, queued, mem⟩
    exact ⟨b.owner, b, queued, rfl, mem⟩
  · rintro ⟨_, b, queued, _, mem⟩
    exact ⟨b, queued, mem⟩

theorem Within.allChanges (h : Within t u) : u.allChanges ⊆ t.allChanges := by
  intro x mem
  obtain ⟨k, own⟩ := mem_allChanges_iff.mp mem
  exact mem_allChanges_iff.mpr ⟨k, h.changes k own⟩

/-- The changes that a removal names leave, and nothing comes. -/
theorem Within.ofLoses {gone : CpId → Change → Bool} (h : TakeLoses gone t u) : Within t u := by
  refine .parts (fun c => ?_) fun b mem => ?_
  · rw [h.staging]
    exact List.filter_sublist
  · rw [h.queue] at mem
    obtain ⟨b', was, rfl⟩ := List.mem_map.mp (List.mem_of_mem_filter mem)
    exact ⟨b', was, rfl, List.filter_sublist⟩

end

section
variable (t : TakeUnit) (c : CpId)

/-- R118: a port's staging batch loses changes. -/
theorem putStaging_within {cs : List Change} (part : cs.Sublist (t.staging.look c)) :
    Within t { t with staging := t.staging.put c cs } := by
  refine .parts (fun k => ?_) fun b mem => ⟨b, mem, rfl, List.Sublist.refl _⟩
  rw [Table.look_put]
  split
  · rename_i own
    exact own ▸ part
  · exact List.Sublist.refl _

/-- R116: a change that is put into a port's staging batch is the port's. -/
theorem mem_changesBy_staged {k : CpId} {x z : Change}
    (mem : z ∈ changesBy { t with staging := t.staging.put c (putChange x (t.staging.look c)) } k) :
    k = c ∧ z = x ∨ z ∈ changesBy t k := by
  rw [mem_changesBy] at mem ⊢
  simp only [Table.look_put] at mem
  rcases mem with staged | queued
  · split at staged
    · rename_i own
      exact (mem_putChange staged).imp (⟨own.symm, ·⟩) fun was => .inl (own ▸ was)
    · exact .inr (.inl staged)
  · exact .inr (.inr queued)

theorem namesOnce_staged (x : Change) (once : NamesOnce t) :
    NamesOnce { t with staging := t.staging.put c (putChange x (t.staging.look c)) } := by
  refine ⟨fun k => ?_, once.2⟩
  rw [Table.look_put]
  split
  · exact putChange_once x (once.1 c)
  · exact once.1 k

/-- R122, R126: a batch leaves the queue. -/
theorem shorter_within {q : List Batch} (part : q ⊆ t.queue) : Within t { t with queue := q } :=
  .parts (fun _ => List.Sublist.refl _) fun b mem => ⟨b, part mem, rfl, List.Sublist.refl _⟩

theorem dropHead_within : Within t t.dropHead :=
  (shorter_within t (List.tail_subset _)).trans (.reload _)

theorem cancelled_within (met : Bool) (k : Nat) : Within t (t.cancelled met k) := by
  have erased : Within t { t with queue := t.queue.eraseIdx k } := shorter_within t (List.eraseIdx_subset ..)
  have marked (f : Bool) : Within t { t with queue := t.queue.eraseIdx k, freshHead := f } :=
    erased.trans (.same rfl rfl)
  unfold TakeUnit.cancelled
  dsimp only
  split
  · exact (marked _).trans (.reload _)
  · exact erased

/-- R129: everything leaves. -/
theorem flushed_within : Within t t.flushed := by
  refine Within.trans (.parts (fun k => ?_) fun b mem => ?_) (.reload _)
  · rw [Table.look_fill]
    exact List.nil_sublist _
  · cases mem

/-- R119: the staging batch of a port goes to the tail of the queue. -/
theorem closed_within (delay : Nat) : Within t (t.closed c delay) := by
  have moved : Within t { t with
      staging := t.staging.put c []
      queue := t.queue ++ [⟨c, t.closureCounter, delay, t.staging.look c⟩] } := by
    refine ⟨fun k x mem => ?_, fun ⟨staged, queued⟩ => ⟨fun k => ?_, fun b mem => ?_⟩⟩
    · rw [mem_changesBy] at mem ⊢
      simp only [Table.look_put, List.mem_append, List.mem_singleton] at mem
      rcases mem with still | ⟨b, was | rfl, own, inBatch⟩
      · split at still
        · cases still
        · exact .inl still
      · exact .inr ⟨b, was, own, inBatch⟩
      · exact .inl (own ▸ inBatch)
    · rw [Table.look_put]
      split
      · exact List.nodup_nil
      · exact staged k
    · rcases List.mem_append.mp mem with was | new
      · exact queued b was
      · rw [List.mem_singleton.mp new]
        exact staged c
  have marked (m : TakeTimer) (n : Byte) : Within t { t with
      staging := t.staging.put c []
      queue := t.queue ++ [⟨c, t.closureCounter, delay, t.staging.look c⟩]
      timer := m, closureCounter := n } := moved.trans (.same rfl rfl)
  unfold TakeUnit.closed
  dsimp only
  split <;> exact marked _ _

end

/-! ## The namings that leave with changes (R140) -/

section
variable (t : TakeUnit) (c : CpId) (n : TagId)

theorem namedBy_staged_queued : namedBy n t.allChanges =
    ∑ k : CpId, namedBy n (t.staging.look k) + namedBy n (t.queue.flatMap (·.changes)) := by
  simp only [TakeUnit.allChanges, namedBy_append, Fin.sum_univ_three]

/-- Another list stands in a port's staging batch. -/
theorem namedBy_putStaging (cs : List Change) :
    namedBy n (TakeUnit.allChanges { t with staging := t.staging.put c cs }) + namedBy n (t.staging.look c) =
      namedBy n t.allChanges + namedBy n cs := by
  have split (g : CpId → Nat) : ∑ k, g k = g c + ∑ k ∈ Finset.univ.erase c, g k :=
    (Finset.add_sum_erase _ _ (Finset.mem_univ c)).symm
  have others : ∑ k ∈ Finset.univ.erase c, namedBy n ((t.staging.put c cs).look k) =
      ∑ k ∈ Finset.univ.erase c, namedBy n (t.staging.look k) :=
    Finset.sum_congr rfl fun k mem => by rw [Table.look_put_ne _ _ (Finset.ne_of_mem_erase mem).symm]
  rw [namedBy_staged_queued, namedBy_staged_queued, split, split, others, Table.look_put_self]
  dsimp only
  omega

/-- R118: the changes for a destination leave a port's staging batch. -/
theorem namedBy_unstaged (d : DestId) : namedBy n t.allChanges =
    namedBy n (TakeUnit.allChanges { t with staging := t.staging.put c (changesNotFor d (t.staging.look c)) }) +
      namedBy n (changesFor d (t.staging.look c)) := by
  have put := namedBy_putStaging t c n (changesNotFor d (t.staging.look c))
  have split := namedBy_notFor d (t.staging.look c) n
  omega

/-- R116: a change is put into a port's staging batch. -/
theorem namedBy_staged (x : Change) (once : ((t.staging.look c).map (·.dest)).Nodup) :
    namedBy n t.allChanges + (if x.tag = some (.record n) then 1 else 0) =
    namedBy n (TakeUnit.allChanges { t with staging := t.staging.put c (putChange x (t.staging.look c)) }) +
      namedBy n (changesFor x.dest (t.staging.look c)) := by
  have put := namedBy_putStaging t c n (putChange x (t.staging.look c))
  have replaced := namedBy_putChange (x := x) once n
  omega

/-- R119: a batch that is closed keeps its changes. -/
theorem namedBy_closed (delay : Nat) : namedBy n (t.closed c delay).allChanges = namedBy n t.allChanges := by
  have put := namedBy_putStaging t c n []
  have closed : namedBy n (t.closed c delay).allChanges =
      namedBy n (TakeUnit.allChanges { t with staging := t.staging.put c [] }) + namedBy n (t.staging.look c) := by
    unfold TakeUnit.closed
    split <;> simp only [TakeUnit.allChanges, namedBy_append, List.flatMap_append, List.flatMap_singleton,
      Nat.add_assoc]
  rw [closed, put]
  rfl

/-- R126: a batch leaves the queue. -/
theorem namedBy_cancelled (met : Bool) {k : Nat} {b : Batch} (batch : t.queue[k]? = some b) :
    namedBy n t.allChanges = namedBy n (t.cancelled met k).allChanges + namedBy n b.changes := by
  have cancelled : (t.cancelled met k).allChanges = TakeUnit.allChanges { t with queue := t.queue.eraseIdx k } := by
    unfold TakeUnit.cancelled
    dsimp only
    split
    · rw [allChanges_reload]
      rfl
    · rfl
  obtain ⟨place, rfl⟩ := List.getElem?_eq_some_iff.mp batch
  have perm := (List.getElem_cons_eraseIdx_perm place).flatMap_right fun b => b.changes
  have queue : namedBy n (t.queue.flatMap (·.changes)) =
      namedBy n t.queue[k].changes + namedBy n ((t.queue.eraseIdx k).flatMap (·.changes)) := by
    rw [← namedBy_append, ← List.flatMap_cons]
    exact (perm.countP_eq _).symm
  rw [cancelled]
  simp only [TakeUnit.allChanges, namedBy_append, queue]
  omega

/-- R129: everything leaves. -/
theorem namedBy_flushed : namedBy n t.allChanges = namedBy n t.flushed.allChanges + namedBy n t.allChanges := by
  have none : t.flushed.allChanges = [] := by
    rw [TakeUnit.flushed, allChanges_reload]
    simp [TakeUnit.allChanges]
  rw [none]
  exact (Nat.zero_add _).symm

end

end Sys2Proof.Machine.WaitingMoves
end

section
/-! PROOFS. What keeps the waiting changes under their holders' claims and the counts exact (R117, R128, R138, R140):
the two forms lane by lane, and the operations on records, Take Units and claims that touch them. -/

namespace Sys2Proof.Machine.ClaimsKept

open Withdrawals ClaimRanges ClaimMoves CountsKept WaitingMoves

/-! ## The two forms -/

/-- A change of port `k` that waits on lane `l` is for a destination that `k` holds and `l` times (R117, R128). -/
def Owned (s : State) (l : LaneId) (k : CpId) (x : Change) : Prop :=
  s.holders.look (destItem x.dest) = some k ∧ timingLane s x.dest = l

theorem claimsForm_iff (s : State) : ClaimsForm s ↔
    (∀ l k, ∀ x ∈ changesBy (s.takes.look l) k, Owned s l k x) ∧ (∀ l, NamesOnce (s.takes.look l)) ∧
      (s.phase ≠ .running → ∀ l, (s.takes.look l).allChanges = []) := by
  constructor
  · rintro ⟨staged, queued, stopped⟩
    refine ⟨fun l k x mem => ?_, fun l => ⟨fun c => (staged l c).2, fun b mem => (queued l b mem).2⟩, stopped⟩
    rcases mem_changesBy.mp mem with inStaging | ⟨b, inQueue, rfl, inBatch⟩
    · exact (staged l k).1 x inStaging
    · exact (queued l b inQueue).1 x inBatch
  · rintro ⟨owned, once, stopped⟩
    refine ⟨fun l c => ⟨fun x mem => ?_, (once l).1 c⟩, fun l b mem => ⟨fun x inBatch => ?_, (once l).2 b mem⟩, stopped⟩
    · exact owned l c x (mem_changesBy.mpr (.inl mem))
    · exact owned l b.owner x (mem_changesBy.mpr (.inr ⟨b, mem, rfl, inBatch⟩))

/-- From `s` to `t` both forms are kept; a count that is exact may hang on the claims. -/
structure KeepsClaims (s t : State) : Prop where
  claims : ClaimsForm s → ClaimsForm t
  counts : ClaimsForm s → CountForm s → CountForm t

section
variable {s t u : State}

theorem KeepsClaims.refl (s : State) : KeepsClaims s s := ⟨id, fun _ => id⟩

theorem KeepsClaims.trans (h : KeepsClaims s t) (k : KeepsClaims t u) : KeepsClaims s u :=
  ⟨k.claims ∘ h.claims, fun claims form => k.counts (h.claims claims) (h.counts claims form)⟩

theorem KeepsClaims.foldl {α : Type} (f : State → α → State) (h : ∀ s a, KeepsClaims s (f s a)) (l : List α)
    (s : State) : KeepsClaims s (l.foldl f s) :=
  foldl_relates _ KeepsClaims.refl (fun _ _ _ => .trans) f h l s

/-- Where no port gains a waiting change, each that is left still has to be owned. -/
theorem claimsForm_within (within : ∀ l, Within (s.takes.look l) (t.takes.look l)) (phase : t.phase = s.phase)
    (owned : ∀ l k, ∀ x ∈ changesBy (t.takes.look l) k, Owned s l k x → Owned t l k x) (form : ClaimsForm s) :
    ClaimsForm t := by
  rw [claimsForm_iff] at form ⊢
  obtain ⟨were, once, stopped⟩ := form
  refine ⟨fun l k x mem => ?_, fun l => (within l).once (once l), fun h l => ?_⟩
  · exact owned l k x mem (were l k x ((within l).changes k mem))
  · have part := (within l).allChanges
    rw [stopped (phase ▸ h) l] at part
    exact List.subset_nil.mp part

/-- The timing lanes hang on the ports' reference lanes alone (R66). -/
theorem timingLane_congr (refs : ∀ p, (t.saps.look p).refLane = (s.saps.look p).refLane) :
    timingLane t = timingLane s := by
  funext d
  simp only [timingLane, refs]

/-- Where claims and timing lanes stay, every change stays owned. -/
theorem KeepsClaims.within (within : ∀ l, Within (s.takes.look l) (t.takes.look l)) (phase : t.phase = s.phase)
    (holders : t.holders = s.holders) (lanes : timingLane t = timingLane s) (counts : CountForm s → CountForm t) :
    KeepsClaims s t := by
  refine ⟨claimsForm_within within phase fun l k x _ owned => ?_, fun _ => counts⟩
  rwa [Owned, holders, lanes]

/-- The blocks that the forms speak of. -/
def watched (s : State) : Table TakeUnit 8 × Table (Option CpId) 264 × Phase × Table Sap 4 × Table TagRecord 64 ×
    Table Entry 256 :=
  (s.takes, s.holders, s.phase, s.saps, s.tags, s.entries)

/-- Every block that the forms speak of is as it was. -/
theorem KeepsClaims.same (h : watched t = watched s) : KeepsClaims s t := by
  simp only [watched, Prod.mk.injEq] at h
  obtain ⟨takes, holders, phase, saps, tags, entries⟩ := h
  refine .within (fun l => ?_) phase holders (timingLane_congr fun p => by rw [saps]) ?_
  · rw [takes]
    exact .refl _
  · exact countForm_congr entries takes (fun n => by rw [tags]) fun n => by rw [tags]; exact id

/-- First a change of other blocks, which the goal names, then an operation that keeps the forms. -/
theorem KeepsClaims.after (k : KeepsClaims t u) (h : watched t = watched s) : KeepsClaims s u := (same h).trans k

/-- First an operation that keeps the forms, then a change of other blocks. -/
theorem KeepsClaims.before (h : KeepsClaims s t) (k : watched u = watched t) : KeepsClaims s u := h.trans (same k)

/-- Records, Take Units and counted references are as they were. -/
structure SameNamings (s t : State) : Prop where
  tags : t.tags = s.tags
  takes : t.takes = s.takes
  counted : ∀ d, (t.entries.look d).counted = (s.entries.look d).counted

theorem SameNamings.refl (s : State) : SameNamings s s := ⟨rfl, rfl, fun _ => rfl⟩

theorem SameNamings.trans (h : SameNamings s t) (k : SameNamings t u) : SameNamings s u :=
  ⟨k.tags.trans h.tags, k.takes.trans h.takes, fun d => (k.counted d).trans (h.counted d)⟩

theorem SameNamings.countForm (h : SameNamings s t) (form : CountForm s) : CountForm t := by
  rw [countForm_iff] at form ⊢
  have waiting : waitingNamings t = waitingNamings s := by
    unfold waitingNamings
    rw [h.takes]
  rw [waiting]
  exact form.congr h.tags h.counted

/-- Entries that keep their counted references. -/
theorem KeepsClaims.ofEntries {e : Table Entry 256} (counted : ∀ d, (e.look d).counted = (s.entries.look d).counted) :
    KeepsClaims s { s with entries := e } :=
  .within (fun _ => .refl _) rfl rfl rfl (SameNamings.countForm ⟨rfl, rfl, counted⟩)

/-- Where no change waits there is none to be owned. -/
theorem claimsForm_of_empty (empty : ∀ l, (s.takes.look l).allChanges = []) : ClaimsForm s := by
  have absent (l : LaneId) (k : CpId) (x : Change) : x ∉ changesBy (s.takes.look l) k := fun mem => by
    have waits := mem_allChanges_iff.mpr ⟨k, mem⟩
    rw [empty] at waits
    cases waits
  refine (claimsForm_iff s).mpr ⟨fun l k x mem => absurd mem (absent l k x), fun l => ⟨fun c => ?_, fun b mem => ?_⟩,
    fun _ => empty⟩
  · rw [List.eq_nil_iff_forall_not_mem.mpr fun x mem => absent l c x (mem_changesBy.mpr (.inl mem))]
    exact List.nodup_nil
  · rw [List.eq_nil_iff_forall_not_mem.mpr fun x inBatch =>
      absent l b.owner x (mem_changesBy.mpr (.inr ⟨b, mem, rfl, inBatch⟩))]
    exact List.nodup_nil

end

/-! ## Entries, audio ports, records and Take Units -/

section
variable (s : State)

/-- An entry that keeps its counted reference. -/
theorem modEntry_keeps (d : DestId) {f : Entry → Entry} (counted : ∀ e, (f e).counted = e.counted) :
    KeepsClaims s (modEntry d f s) := by
  refine .ofEntries fun k => ?_
  rw [Table.look_put]
  split
  · rename_i own
    rw [counted, own]
  · rfl

/-- An audio port that keeps its reference lane. -/
theorem modSap_keeps (p : SapId) {f : Sap → Sap} (refLane : ∀ q, (f q).refLane = q.refLane) :
    KeepsClaims s (modSap p f s) := by
  refine .within (fun _ => .refl _) rfl rfl (timingLane_congr fun q => ?_)
    (SameNamings.countForm ⟨rfl, rfl, fun _ => rfl⟩)
  rw [modSap_look]
  split
  · rename_i own
    rw [refLane, own]
  · rfl

/-- A record that keeps its count, and that is only freed without one. -/
theorem modTag_keeps {n : TagId} {f : TagRecord → TagRecord} (count : (f (s.tags.look n)).count = (s.tags.look n).count)
    (free : (f (s.tags.look n)).content = none → (s.tags.look n).content = none ∨ (s.tags.look n).count = 0) :
    KeepsClaims s (modTag n f s) := by
  refine .within (fun _ => .refl _) rfl rfl rfl fun form m => ?_
  obtain ⟨named, unwritten⟩ := form m
  show ((modTag n f s).tags.look m).count = namings s m ∧ _
  rw [modTag_look]
  split
  · rename_i own
    subst own
    rw [count]
    exact ⟨named, fun freed => (free freed).elim unwritten id⟩
  · exact ⟨named, unwritten⟩

/-- Timer, holds and marks of a Take Unit hold no change. -/
theorem modTake_marks_keeps (l : LaneId) {f : TakeUnit → TakeUnit} (staging : ∀ t, (f t).staging = t.staging)
    (queue : ∀ t, (f t).queue = t.queue) : KeepsClaims s (modTake l f s) := by
  refine .within (fun k => ?_) rfl rfl rfl fun form => ?_
  · rw [modTake_look]
    split
    · rename_i own
      rw [← own]
      exact .same (staging _) (queue _)
    · exact .refl _
  · refine countForm_endChanges (gone := []) (fun n => ?_) form
    simp only [TakeUnit.allChanges, staging, queue]
    rfl

end

section
variable {s : State} {l : LaneId} {f : TakeUnit → TakeUnit}

theorem modTake_within (part : Within (s.takes.look l) (f (s.takes.look l))) (k : LaneId) :
    Within (s.takes.look k) ((modTake l f s).takes.look k) := by
  rw [modTake_look]
  split
  · rename_i own
    exact own ▸ part
  · exact .refl _

/-- R127, R140: changes leave a lane's Take Unit and end. -/
theorem ended_keeps {gone : List Change} (part : Within (s.takes.look l) (f (s.takes.look l)))
    (left : ∀ n, namedBy n (s.takes.look l).allChanges =
      namedBy n (f (s.takes.look l)).allChanges + namedBy n gone) :
    KeepsClaims s (endChanges gone (modTake l f s)) := by
  have counts := countForm_endChanges (l := l) (f := f) left
  have within := modTake_within part
  obtain ⟨g, frame⟩ := endChanges_frame gone (modTake l f s)
  rw [frame] at counts ⊢
  exact .within within rfl rfl rfl counts

end

section
variable (s : State)

theorem setFlag_keeps (f : FaultFlag) : KeepsClaims s (setFlag f s) := by
  obtain ⟨v, p, h⟩ := setFlag_frame f s
  rw [h]
  exact .same rfl

theorem laneNotice_keeps (l : LaneId) : KeepsClaims s (laneNotice l s) := by
  obtain ⟨p, h⟩ := laneNotice_frame l s
  rw [h]
  exact .same rfl

theorem setNotices_keeps (cs : List CpId) (n : Notice) : KeepsClaims s (setNotices cs n s) := by
  obtain ⟨p, h⟩ := setNotices_frame cs n s
  rw [h]
  exact .same rfl

theorem setFlags_keeps (fs : List FaultFlag) : KeepsClaims s (fs.foldl (fun s f => setFlag f s) s) :=
  .foldl _ setFlag_keeps fs s

theorem ofRings_keeps {t : State} (h : WritesRings s t) : KeepsClaims s t := by
  obtain ⟨m, w, rfl⟩ := h
  exact .same rfl

/-- At the reset no change waits and no record is named (R78, R114, R133). -/
theorem blockReset_keeps (pending : List Instr) (now choices : Nat) (phase : Phase) (low : Bool)
    (senior : Option CpId) (store : StoreContent) :
    KeepsClaims s (State.blockReset pending now choices phase low senior store) := by
  have empty (l : LaneId) :
      ((State.blockReset pending now choices phase low senior store).takes.look l).allChanges = [] := by
    simp only [State.blockReset, Table.look_fill]
    decide
  refine ⟨fun _ => claimsForm_of_empty empty, fun _ _ n => ?_⟩
  have unnamed : namings (State.blockReset pending now choices phase low senior store) n = 0 := by
    simp only [namings_eq, empty]
    simp [State.blockReset, entryAtReset, namedBy]
  rw [unnamed]
  simp [State.blockReset]

end

/-! ## Staging (R116, R117) -/

/-- A change is put into a port's staging batch on a lane. -/
def staged (c : CpId) (l : LaneId) (x : Change) (s : State) : State :=
  modTake l (fun t => { t with staging := t.staging.put c (putChange x (t.staging.look c)) }) s

section
variable {c : CpId} {l : LaneId} {x : Change} {s : State}

theorem stageChange_eq : stageChange c l x s =
    endChanges (changesFor x.dest ((s.takes.look l).staging.look c))
      (countUp (x.tag.getD .none) (staged c l x s)) := rfl

theorem stageChange_frame : ∃ g, stageChange c l x s = { staged c l x s with tags := g } := by
  obtain ⟨g, up⟩ := countUp_frame (x.tag.getD .none) (staged c l x s)
  obtain ⟨g', down⟩ := endChanges_frame (changesFor x.dest ((s.takes.look l).staging.look c))
    (countUp (x.tag.getD .none) (staged c l x s))
  exact ⟨g', by rw [stageChange_eq, down, up]⟩

/-- R116, R117: the change is for a destination of the caller's, on its timing lane. -/
theorem stageChange_claims (running : s.phase = .running) (owned : Owned s l c x) (form : ClaimsForm s) :
    ClaimsForm (stageChange c l x s) := by
  rw [claimsForm_iff] at form
  obtain ⟨were, once, _⟩ := form
  obtain ⟨g, frame⟩ := stageChange_frame (c := c) (l := l) (x := x) (s := s)
  rw [frame, claimsForm_iff]
  refine ⟨fun k j y mem => ?_, fun k => ?_, fun stopped => absurd running stopped⟩
  · show Owned s k j y
    change y ∈ changesBy ((staged c l x s).takes.look k) j at mem
    rw [staged, modTake_look] at mem
    split at mem
    · rename_i own
      subst own
      rcases mem_changesBy_staged _ _ mem with ⟨rfl, rfl⟩ | was
      · exact owned
      · exact were l j y was
    · exact were k j y mem
  · show NamesOnce ((staged c l x s).takes.look k)
    rw [staged, modTake_look]
    split
    · exact namesOnce_staged _ c x (once l)
    · exact once k

/-- R116, R140: the change names no free record, and one that it replaces ends. -/
theorem stageChange_counts (written : namesFreeRecord s x = false)
    (once : (((s.takes.look l).staging.look c).map (·.dest)).Nodup) (form : CountForm s) :
    CountForm (stageChange c l x s) := by
  have naming (n : TagId) : x.tag.getD .none = .record n ↔ x.tag = some (.record n) := by
    cases x.tag <;> simp
  have named (n : TagId) (names : x.tag.getD .none = .record n) : (s.tags.look n).content ≠ none := by
    rw [naming] at names
    rw [namesFreeRecord, names] at written
    exact Option.isNone_eq_false_iff.mp written |> Option.isSome_iff_ne_none.mp
  have waits : (fun n => waitingNamings s n + if x.tag.getD .none = .record n then 1 else 0) =
      fun n => waitingNamings (staged c l x s) n +
        namedBy n (changesFor x.dest ((s.takes.look l).staging.look c)) := by
    funext n
    have lane := waitingNamings_modTake l (fun t =>
      { t with staging := t.staging.put c (putChange x (t.staging.look c)) }) s n
    have moved := namedBy_staged (s.takes.look l) c n x once
    simp only [naming]
    unfold staged
    omega
  have waiting : waitingNamings (stageChange c l x s) = waitingNamings (staged c l x s) := by
    obtain ⟨g, frame⟩ := stageChange_frame (c := c) (l := l) (x := x) (s := s)
    rw [frame]
    rfl
  rw [countForm_iff] at form ⊢
  have up := (form.congr (t := staged c l x s) rfl fun _ => rfl).countUp named
  rw [waits] at up
  rw [waiting, stageChange_eq]
  exact up.endChanges

theorem stageChange_keeps (running : s.phase = .running) (owned : Owned s l c x)
    (written : namesFreeRecord s x = false) : KeepsClaims s (stageChange c l x s) :=
  ⟨stageChange_claims running owned, fun claims =>
    stageChange_counts written ((((claimsForm_iff s).mp claims).2.1 l).1 c)⟩

end

/-! ## Claim items that are handed over (R99, R100, R101) -/

section
variable (c : CpId) (d : DestId) (i : ItemId) (s : State)

/-- R128: after a withdrawal the port has no change for the destination on the lane that times it. -/
theorem withdraw_within : (∀ l, Within (s.takes.look l) ((withdraw c d s).takes.look l)) ∧
    ∀ x ∈ changesBy ((withdraw c d s).takes.look (timingLane s d)) c, x.dest ≠ d := by
  cases changes : (s.takes.look (timingLane s d)).changesOf c d with
  | nil =>
    rw [withdraw_nothing c d s changes]
    rw [changesOf_eq, List.filter_eq_nil_iff] at changes
    exact ⟨fun _ => .refl _, fun x mem => by simpa using changes x mem⟩
  | cons x xs =>
    obtain ⟨g, frame⟩ := endChanges_frame (x :: xs) (modTake (timingLane s d) (TakeUnit.withdrawn c d) s)
    have takes : (withdraw c d s).takes = (modTake (timingLane s d) (TakeUnit.withdrawn c d) s).takes := by
      rw [withdraw_something c d s changes, frame]
      rfl
    have loses := withdrawn_loses c d (s.takes.look (timingLane s d))
    rw [takes]
    refine ⟨modTake_within (.ofLoses loses), fun y mem => ?_⟩
    rw [modTake_look_self, loses.changesBy_eq, List.mem_filter] at mem
    simpa [changeOfPort] using mem.2

theorem withdraw_countForm (form : CountForm s) : CountForm (withdraw c d s) := by
  cases changes : (s.takes.look (timingLane s d)).changesOf c d with
  | nil =>
    rw [withdraw_nothing c d s changes]
    exact form
  | cons x xs =>
    have counts := withdraw_counts c d s form
    rw [changes] at counts
    rw [withdraw_something c d s changes]
    exact SameNamings.countForm ⟨rfl, rfl, fun _ => rfl⟩ counts

theorem withdrawItem_countForm (form : CountForm s) : CountForm (withdrawItem c i s) := by
  unfold withdrawItem
  split
  · exact withdraw_countForm c _ s form
  · exact form

/-- R101, R128: where an item that `c` held has left its hold, its withdrawal leaves every change owned. -/
theorem withdrawItem_claims {t : State} (held : ∀ k, s.holders.look i = some k → k = c)
    (holders : ∀ j, j ≠ i → t.holders.look j = s.holders.look j) (takes : t.takes = s.takes)
    (saps : t.saps = s.saps) (phase : t.phase = s.phase) (form : ClaimsForm s) : ClaimsForm (withdrawItem c i t) := by
  have lanes : timingLane t = timingLane s := timingLane_congr fun p => by rw [saps]
  unfold withdrawItem
  split
  · rename_i d item
    obtain ⟨within, gone⟩ := withdraw_within c d t
    obtain ⟨k, g, p, frame⟩ := withdraw_frame c d t
    rw [takes] at within
    refine claimsForm_within within (by rw [frame]; exact phase) (fun l j x mem owned => ?_) form
    obtain ⟨own, lane⟩ := owned
    have kept : destItem x.dest ≠ i := by
      intro this
      have dest : x.dest = d := by
        have back := itemDest_destItem x.dest
        rw [this, item] at back
        exact (Option.some.inj back).symm
      obtain rfl : j = c := held j (this ▸ own)
      subst dest
      rw [← lanes] at lane
      exact gone x (lane ▸ mem) rfl
    have after : timingLane (withdraw c d t) = timingLane t := timingLane_congr fun p => by rw [frame]
    rw [Owned, after, lanes, frame]
    exact ⟨(holders _ kept).trans own, lane⟩
  · rename_i lane
    refine claimsForm_within (fun l => by rw [takes]; exact .refl _) phase (fun l j x _ owned => ?_) form
    have kept : destItem x.dest ≠ i := by
      rintro rfl
      cases (itemDest_destItem x.dest).symm.trans lane
    rw [Owned, lanes, holders _ kept]
    exact owned

/-- R99: an item of the port's, or a FREE one, is given up. -/
theorem freeItem_keeps (held : ∀ k, s.holders.look i = some k → k = c) : KeepsClaims s (freeItem c i s) := by
  refine ⟨withdrawItem_claims c i s held (fun j other => ?_) rfl rfl rfl, fun _ form => ?_⟩
  · rw [setHolder_look, if_neg other.symm]
  · exact withdrawItem_countForm c i _ (SameNamings.countForm (s := s) ⟨rfl, rfl, fun _ => rfl⟩ form)

/-- R100: an item passes to `c` from whoever holds it. -/
theorem seizeItem_keeps : KeepsClaims s (seizeItem c i s) := by
  unfold seizeItem
  split
  · rename_i free
    refine ⟨claimsForm_within (fun _ => .refl _) rfl fun l k x _ owned => ?_,
      fun _ => SameNamings.countForm ⟨rfl, rfl, fun _ => rfl⟩⟩
    obtain ⟨own, lane⟩ := owned
    have other : i ≠ destItem x.dest := by
      rintro rfl
      cases free.symm.trans own
    exact ⟨(setHolder_look ..).trans ((if_neg other).trans own), lane⟩
  · rename_i h held
    split_ifs
    · exact .refl s
    · refine ⟨withdrawItem_claims h i s (fun k own => ?_) (fun j other => ?_) rfl rfl rfl, fun _ form => ?_⟩
      · exact Option.some.inj (own.symm.trans held)
      · exact (setHolder_look ..).trans (if_neg other.symm)
      · exact withdrawItem_countForm h i _ (SameNamings.countForm (s := s) ⟨rfl, rfl, fun _ => rfl⟩ form)

end

/-- R99, R107: a port gives up what it holds of a list. -/
theorem freeItems_keeps (c : CpId) (items : List ItemId) (s : State) : KeepsClaims s (freeItems c items s) := by
  have fold (items : List ItemId) (s : State) (held : ∀ i ∈ items, ∀ k, s.holders.look i = some k → k = c) :
      KeepsClaims s (items.foldl (fun s i => freeItem c i s) s) := by
    induction items generalizing s with
    | nil => exact .refl s
    | cons i items ih =>
      refine (freeItem_keeps c i s (held i List.mem_cons_self)).trans (ih _ fun j later k own => ?_)
      rw [freeItem, withdrawItem_holders, setHolder_look] at own
      split at own
      · cases own
      · exact held j (List.mem_cons_of_mem i later) k own
  refine fold _ s fun i mem k own => ?_
  simp only [heldItems, List.mem_filter, decide_eq_true_eq] at mem
  exact Option.some.inj (own.symm.trans mem.2)

/-- R98: the FREE items of a list are taken. -/
theorem takeItems_keeps (c : CpId) (items : List ItemId) (s : State) :
    KeepsClaims s (takeItems c (freeOf s items) s) := by
  rw [takeItems_eq]
  refine ⟨claimsForm_within (fun _ => .refl _) rfl fun l k x _ owned => ?_,
    fun _ => SameNamings.countForm ⟨rfl, rfl, fun _ => rfl⟩⟩
  obtain ⟨own, lane⟩ := owned
  refine ⟨?_, lane⟩
  show (takenTable c (freeOf s items) s.holders).look (destItem x.dest) = some k
  rw [takenTable_look, if_neg fun taken => ?_]
  · exact own
  · simp only [freeOf, List.mem_filter, decide_eq_true_eq] at taken
    cases taken.2.symm.trans own

/-- R66: a port's reference lane changes where no change waits for its destinations. -/
theorem setRefLane_keeps (p : SapId) (l : LaneId) {s : State} (idle : portQueued s p = false) :
    KeepsClaims s (modSap p (fun q => { q with refLane := l }) s) := by
  refine ⟨claimsForm_within (fun _ => .refl _) rfl fun k j x mem owned => ?_,
    fun _ => SameNamings.countForm ⟨rfl, rfl, fun _ => rfl⟩⟩
  have elsewhere : sapOf x.dest ≠ some p := by
    intro own
    have waits : portQueued s p = true := by
      simp only [portQueued, List.any_eq_true, List.mem_finRange, true_and, forPort, decide_eq_true_eq]
      exact ⟨k, x, mem_allChanges_iff.mpr ⟨j, mem⟩, own⟩
    cases idle.symm.trans waits
  obtain ⟨own, lane⟩ := owned
  refine ⟨own, Eq.trans ?_ lane⟩
  unfold timingLane
  split
  · rfl
  · split
    · rename_i q port
      have other : p ≠ q := by
        rintro rfl
        exact elsewhere port
      rw [modSap_look_ne _ _ other]
    · rfl

end Sys2Proof.Machine.ClaimsKept
end

section
/-! PROOFS. Every step keeps the waiting changes under their holders' claims and the counts exact (R117, R128, R138,
R140): the events, by the operations that touch an entry, a Take Unit, a claim or a record. -/

namespace Sys2Proof.Machine.ClaimsKept

open Withdrawals CountsKept WaitingMoves

/-! ## The sample path, sound cells and lines -/

section
variable (s : State)

theorem modLane_keeps (l : LaneId) (f : Lane → Lane) : KeepsClaims s (modLane l f s) := .same rfl

theorem modReader_keeps (l : LaneId) (f : Reader → Reader) : KeepsClaims s (modReader l f s) := .same rfl

theorem modWriter_keeps (l : LaneId) (f : Writer → Writer) : KeepsClaims s (modWriter l f s) := .same rfl

/-- R68, R70: a move leaves the counted reference. -/
theorem moveEntry_keeps (n : Option Nat) (d : DestId) : KeepsClaims s (moveEntry n d s) := by
  have moved : KeepsClaims s (modEntry d (movedEntry s n) s) := modEntry_keeps s d fun _ => rfl
  unfold moveEntry
  exact ite_relates _ _ _ _ _ (moved.trans (setFlag_keeps _ _)) moved

theorem silentAdvance_keeps (n : Nat) (d : DestId) : KeepsClaims s (silentAdvance n d s) :=
  ite_relates _ _ _ _ _ (.refl s) (moveEntry_keeps s _ d)

theorem readDests_keeps (ds : List DestId) : KeepsClaims s (readDests ds s).2 := by
  induction ds generalizing s with
  | nil => exact .refl s
  | cons d ds ih => exact (moveEntry_keeps s none d).trans (ih _)

/-- R76: a nudge leaves the counted reference. -/
theorem applyNudges_keeps (l : LaneId) : KeepsClaims s (applyNudges l s) := by
  refine .ofEntries fun d => ?_
  rw [Table.look_gen]
  split
  · unfold Entry.nudged
    split <;> rfl
  · rfl

theorem soundCell_keeps (l : LaneId) (words : List LaneWord) : KeepsClaims s (soundCell l words s) := by
  unfold soundCell
  refine ite_relates _ _ _ _ _ ?_ (.refl s)
  split
  · exact .refl s
  · exact .refl s
  · exact (modReader_keeps s l _).trans (setFlag_keeps _ _)
  · rename_i c _
    obtain ⟨r, m, i, h⟩ := takeCell_frame l c s
    rw [h]
    exact .same rfl

theorem emitSet_keeps (l : LaneId) (g : GroupId) : KeepsClaims s (emitSet l g s).2 := by
  unfold emitSet
  split
  · exact .refl s
  · exact (readDests_keeps s (groupDests l g)).trans (modWriter_keeps _ l _)

theorem emitSets_keeps (l : LaneId) (g : GroupId) (n : Nat) : KeepsClaims s (emitSets l g n s).2 := by
  induction n generalizing s with
  | zero => exact .refl s
  | succ n ih => exact (emitSet_keeps s l g).trans (ih _)

theorem emitCells_keeps (l : LaneId) (c : FormatClass) (i : Nat) (gs : List GroupId) :
    KeepsClaims s (emitCells l c i gs s).2 := by
  induction gs generalizing s with
  | nil => exact .refl s
  | cons g gs ih => exact ((emitSets_keeps s l g (cellSets c i)).trans (modWriter_keeps _ l _)).trans (ih _)

theorem putLine_keeps (l : LaneId) (line : FeedLine) : KeepsClaims s (putLine l line s) := by
  have crowded (u : State) : KeepsClaims u (crowd l u) := by
    unfold crowd
    exact ite_relates _ _ _ _ _ ((modWriter_keeps u l _).trans (setFlag_keeps _ _)) (modWriter_keeps u l _)
  have build (c : FormatClass) : KeepsClaims s (buildLine l c line s) := by
    have emitted := emitCells_keeps s l c (s.writers.look l).linePos
      (planLine c (s.lanes.look l).plan (s.readers.look l).handed).emitted
    unfold buildLine
    exact (ite_relates _ _ _ _ _ (emitted.trans (crowded _)) emitted).trans (modLane_keeps _ l _)
  unfold putLine
  split
  · exact ite_relates _ _ _ _ _ (build _) (.same rfl)
  · exact .same rfl

theorem cellLine_keeps (l : LaneId) (line : FeedLine) : KeepsClaims s (cellLine l line s) := by
  unfold cellLine
  split
  · exact .refl s
  · exact modLane_keeps s l _
  · exact ite_relates _ _ _ _ _ ((putLine_keeps s l line).before rfl) (modLane_keeps s l _)

end

/-! ## Lane states and frames -/

section
variable (s : State)

/-- R129: every waiting change of the lane leaves and ends. -/
theorem flush_keeps (l : LaneId) : KeepsClaims s (flush l s) :=
  (ended_keeps (flushed_within _) (namedBy_flushed _)).trans (setNotices_keeps _ _ _)

theorem enterParked_keeps (l : LaneId) (cause : ParkCause) : KeepsClaims s (enterParked l cause s) := by
  have parked (f : Lane → Lane) : KeepsClaims s (modTake l (fun t => { t with holdPark := true }) (modLane l f s)) :=
    (modLane_keeps s l f).trans (modTake_marks_keeps _ l (fun _ => rfl) fun _ => rfl)
  unfold enterParked
  exact (ite_relates _ _ _ _ _ ((parked _).trans (flush_keeps _ l)) (parked _)).trans (laneNotice_keeps _ l)

theorem leaveParked_keeps (l : LaneId) : KeepsClaims s (leaveParked l s) :=
  (modLane_keeps s l _).trans (modTake_marks_keeps _ l (fun _ => rfl) fun _ => rfl)

theorem enterRun_keeps (l : LaneId) (c : FormatClass) : KeepsClaims s (enterRun l c s) := by
  have left : KeepsClaims s (if (s.lanes.look l).state = .parked then leaveParked l s else s) :=
    ite_relates _ _ _ _ _ (leaveParked_keeps s l) (.refl s)
  unfold enterRun
  exact (left.trans (modLane_keeps _ l _)).trans (laneNotice_keeps _ l)

theorem loseLock_keeps (l : LaneId) : KeepsClaims s (loseLock l s) := by
  have departed : KeepsClaims s (setFlag (.lockLost l) (departRun l s)) := .after (setFlag_keeps _ _) rfl
  unfold loseLock
  exact ite_relates _ _ _ _ _ (departed.trans (enterParked_keeps _ l _))
    ((departed.trans (modLane_keeps _ l _)).trans (laneNotice_keeps _ l))

theorem formatChange_keeps (l : LaneId) : KeepsClaims s (formatChange l s) :=
  (setFlag_keeps s _).trans (enterParked_keeps _ l _)

theorem laneWork_keeps (l : LaneId) : KeepsClaims s (laneWork l s) := by
  unfold laneWork
  split
  · exact ite_relates _ _ _ _ _ (enterParked_keeps s l _) (modLane_keeps s l _)
  · unfold parkedWork
    dsimp only
    split
    · exact ite_relates _ _ _ _ _ (enterRun_keeps s l _) (modLane_keeps s l _)
    · exact modLane_keeps s l _
  · exact .refl s

theorem closeFrame_keeps (l : LaneId) : KeepsClaims s (closeFrame l s) := by
  have padded := ofRings_keeps s (settleTracks_frame l (List.finRange 24) s)
  have settle : KeepsClaims s (settleFrame l s) := by
    unfold settleFrame
    exact (ite_relates _ _ _ _ _ (padded.trans (setFlag_keeps _ _)) padded).trans (modReader_keeps _ l _)
  have complete (u : State) : KeepsClaims u (completeFrame l u) := by
    unfold completeFrame
    exact (KeepsClaims.foldl _ (fun s _ => silentAdvance_keeps s _ _) _ u).trans (modWriter_keeps _ l _)
  exact settle.trans (complete _)

theorem frameStart_keeps (l : LaneId) : KeepsClaims s (frameStart l s) := by
  have crowding (u : State) : KeepsClaims u (closeCrowding l u) :=
    ite_relates _ _ _ _ _ (modWriter_keeps u l _) (.refl u)
  have evaluate (u : State) : KeepsClaims u (evaluateFrame l u) := modReader_keeps u l _
  have latch (v u : State) : KeepsClaims u (latchTags v l u) := modWriter_keeps u l _
  have work : KeepsClaims s (frameWork l s) := by
    unfold frameWork
    exact (((closeFrame_keeps s l).trans (evaluate _)).trans (latch _ _)).trans (crowding _)
  unfold frameStart
  exact ((work.trans (laneWork_keeps _ l)).trans (modLane_keeps _ l _)).trans
    (modTake_marks_keeps _ l (fun _ => rfl) fun _ => rfl)

theorem runAtInput_keeps (l : LaneId) (c : FormatClass) : KeepsClaims s (runAtInput l c s) := by
  have entered := enterRun_keeps s l c
  exact ite_relates _ _ _ _ _ (entered.trans (frameStart_keeps _ l)) (entered.trans (modLane_keeps _ l _))

theorem inputInRun_keeps (l : LaneId) (d : Detector) (lost : Bool) : KeepsClaims s (inputInRun l d lost s) := by
  have opened : KeepsClaims s (if opensFrame s l then frameStart l s else s) :=
    ite_relates _ _ _ _ _ (frameStart_keeps s l) (.refl s)
  have judged : KeepsClaims s (modLane l (fun n => { n with detector := d })
      (if opensFrame s l then frameStart l s else s)) := opened.trans (modLane_keeps _ l _)
  exact ite_relates _ _ _ _ _ (judged.trans (loseLock_keeps _ l))
    (ite_relates _ _ _ _ _ judged (judged.trans (modLane_keeps _ l _)))

theorem inputInSeek_keeps (l : LaneId) (d : Detector) : KeepsClaims s (inputInSeek l d s) := by
  unfold inputInSeek
  split
  · exact ite_relates _ _ _ _ _ (runAtInput_keeps s l _) (formatChange_keeps s l)
  · exact .refl s

theorem inputInCoast_keeps (l : LaneId) (d : Detector) : KeepsClaims s (inputInCoast l d s) := by
  unfold inputInCoast
  split
  · exact ite_relates _ _ _ _ _ (runAtInput_keeps s l _) (formatChange_keeps s l)
  · exact .refl s

theorem inputFrameStart_keeps (l : LaneId) : KeepsClaims s (inputFrameStart l s) := by
  have judged (d : Detector) : KeepsClaims s (modLane l (fun n => { n with detector := d }) s) :=
    modLane_keeps s l _
  have begins (u : State) : KeepsClaims u (beginInput l u) := .same rfl
  unfold inputFrameStart
  dsimp only
  refine ite_relates _ _ _ _ _ (KeepsClaims.trans ?_ (begins _)) (.refl s)
  split
  · exact inputInRun_keeps s l _ _
  · exact (judged _).trans (inputInSeek_keeps _ l _)
  · exact (judged _).trans (inputInCoast_keeps _ l _)
  · exact judged _

theorem lateFrameStart_keeps (l : LaneId) : KeepsClaims s (lateFrameStart l s) :=
  ite_relates _ _ _ _ _
    (ite_relates _ _ _ _ _
      (((frameStart_keeps s l).trans (modLane_keeps _ l _)).trans (loseLock_keeps _ l)) (modLane_keeps s l _))
    (.refl s)

end

/-! ## The take timer (R120, R122) -/

section
variable (s : State)

/-- R122: the head batch is applied, its changes end, and it leaves. -/
theorem applyHead_keeps (l : LaneId) : KeepsClaims s (applyHead l s) := by
  have counts := countForm_applyHead (s := s) l
  cases queue : (s.takes.look l).queue with
  | nil =>
    rw [applyHead, queue]
    exact .refl s
  | cons b rest =>
    rw [TakesApplied.applyHead_cons queue] at counts ⊢
    obtain ⟨e, g, frame⟩ := applyChanges_frame b.changes s
    rw [frame] at counts ⊢
    exact .within (modTake_within (dropHead_within _)) rfl rfl rfl counts

theorem takeTimerWork_keeps (l : LaneId) : KeepsClaims s (takeTimerWork l s) := by
  unfold takeTimerWork
  dsimp only
  split_ifs
  · exact modTake_marks_keeps s l (fun _ => rfl) fun _ => rfl
  · exact .refl s
  · split
    · exact .refl s
    · exact applyHead_keeps s l
    · exact modTake_marks_keeps s l (fun _ => rfl) fun _ => rfl

theorem switchPoint_keeps (l : LaneId) : KeepsClaims s (switchPoint l s) := by
  have moved : KeepsClaims s (applyNudges l (modLane l Lane.planCurrent s)) :=
    (modLane_keeps s l _).trans (applyNudges_keeps _ l)
  exact ite_relates _ _ _ _ _
    ((ite_relates _ _ _ _ _ (moved.trans (takeTimerWork_keeps _ l)) moved).trans (modLane_keeps _ l _)) (.refl s)

theorem take_keeps (l : LaneId) : KeepsClaims s (take l s) :=
  ite_relates _ _ _ _ _ ((modLane_keeps s l _).trans (applyHead_keeps _ l)) (.refl s)

end

/-! ## Audio ports, the scrub and saves -/

section
variable (s : State)

theorem readSlots_keeps (p : SapId) : KeepsClaims s (readSlots p s) := by
  unfold readSlots
  exact (readDests_keeps s (portDests p)).trans (modSap_keeps _ p fun _ => rfl)

theorem portWork_keeps (p : SapId) (xs : Option (Table Sample 16)) (readFirst : Bool) :
    KeepsClaims s (portWork p xs readFirst s) := by
  have write (xs : Table Sample 16) (u : State) : KeepsClaims u (writeSlots p xs u) :=
    ofRings_keeps u (writeSlots_frame p xs u)
  match xs, readFirst with
  | none, false => exact readSlots_keeps s p
  | none, true => exact readSlots_keeps s p
  | some xs, false => exact (write xs s).trans (readSlots_keeps _ p)
  | some xs, true => exact (readSlots_keeps s p).trans (write xs _)

theorem regainPort_keeps (p : SapId) (readFirst : Bool) : KeepsClaims s (regainPort p readFirst s) := by
  unfold regainPort
  exact (modSap_keeps s p (by exact fun _ => rfl)).trans (portWork_keeps _ p none readFirst)

theorem wordClockFrameStart_keeps (p : SapId) (xs : Table Sample 16) (readFirst : Bool) :
    KeepsClaims s (wordClockFrameStart p xs readFirst s) := by
  have present : KeepsClaims s (presentFrameStart p xs readFirst s) := by
    unfold presentFrameStart
    exact (modSap_keeps s p (by exact fun _ => rfl)).trans (portWork_keeps _ p _ readFirst)
  have lost : KeepsClaims s (lostFrameStart p readFirst s) := by
    unfold lostFrameStart
    exact ite_relates _ _ _ _ _ (regainPort_keeps s p readFirst) (modSap_keeps s p (by exact fun _ => rfl))
  exact ite_relates _ _ _ _ _ (ite_relates _ _ _ _ _ present lost) (.refl s)

theorem portRegain_keeps (p : SapId) : KeepsClaims s (portRegain p s) :=
  ite_relates _ _ _ _ _ (regainPort_keeps s p false) (.refl s)

theorem portClockLost_keeps (p : SapId) : KeepsClaims s (portClockLost p s) := by
  unfold portClockLost
  exact ite_relates _ _ _ _ _ ((modSap_keeps s p (by exact fun _ => rfl)).trans (setFlag_keeps _ _)) (.refl s)

theorem internalTimerPeriod_keeps (p : SapId) (readFirst : Bool) :
    KeepsClaims s (internalTimerPeriod p readFirst s) := by
  unfold internalTimerPeriod
  exact ite_relates _ _ _ _ _ ((modSap_keeps s p (by exact fun _ => rfl)).trans (portWork_keeps _ p _ readFirst))
    (.refl s)

/-- R88: a mark of SUSPECT leaves the counted reference. -/
theorem scrubVisit_keeps : KeepsClaims s (scrubVisit s) := by
  have mark : KeepsClaims s (setFlag .entryCheck (modEntry s.scrubPos Entry.suspected s)) :=
    (modEntry_keeps s s.scrubPos (f := Entry.suspected) fun _ => rfl).trans (setFlag_keeps _ _)
  have visit : KeepsClaims s (visitEntry s.scrubPos s) :=
    ite_relates _ _ _ _ _ (mark.before rfl) (.refl s)
  exact ite_relates _ _ _ _ _ (visit.before rfl) (.refl s)

/-- R79: no counted reference changes with an upset. -/
theorem entryUpset_keeps (d : DestId) (u : Upset) : KeepsClaims s (entryUpset d u s) :=
  ite_relates _ _ _ _ _ (modEntry_keeps s d fun _ => by cases u <;> rfl) (.refl s)

theorem finishSave_keeps (ok : Bool) (v : Save) : KeepsClaims s (finishSave ok v s) := by
  have placed (r : Result) (u : State) : KeepsClaims u (placeSave v.caller r u) := by
    unfold placeSave
    split <;> exact .same rfl
  unfold finishSave
  exact ite_relates _ _ _ _ _ ((placed _ _).after rfl) (((placed .saveFailed _).trans (setFlag_keeps _ _)).after rfl)

theorem saveComplete_keeps (readBack : Bool) : KeepsClaims s (saveComplete readBack s) := by
  unfold saveComplete
  split
  · exact .refl s
  · exact finishSave_keeps s _ _

theorem saveTimeout_keeps : KeepsClaims s (saveTimeout s) := by
  unfold saveTimeout
  split
  · exact .refl s
  · exact ite_relates _ _ _ _ _ (finishSave_keeps s _ _) (.refl s)

end

/-! ## Liveness (R106, R107) -/

section
variable (c : CpId) (s : State)

theorem portLate_keeps : KeepsClaims s (portLate c s) := by
  obtain ⟨p, v, h⟩ := portLate_frame c s
  rw [h]
  exact .same rfl

/-- R107: records without their author are as often named. -/
theorem dropAuthor_keeps : KeepsClaims s (dropAuthor c s) := by
  have takes : (dropAuthor c s).takes = s.takes := PortLiveness.dropAuthor_takes c s
  have phase : (dropAuthor c s).phase = s.phase := by
    unfold dropAuthor
    rfl
  have saps : (dropAuthor c s).saps = s.saps := by
    unfold dropAuthor
    rfl
  refine .within (fun l => ?_) phase (PortLiveness.dropAuthor_holders c s) (timingLane_congr fun p => by rw [saps])
    (PortLiveness.dropAuthor_count c s)
  rw [takes]
  exact .refl _

theorem portLost_keeps : KeepsClaims s (portLost c s) := by
  have freed : KeepsClaims s (freeItems c (List.finRange 264) (modPort c (fun p => { p with liveness := .lost }) s)) :=
    .after (freeItems_keeps c _ _) rfl
  have told (u : State) : KeepsClaims u (setNotice c .claimLost u) := .same rfl
  have lost : KeepsClaims s (becomeLost c s) := by
    unfold becomeLost
    refine .trans (.trans ?_ (dropAuthor_keeps c _)) (setFlag_keeps _ _)
    exact ite_relates _ _ _ _ _ freed (freed.trans (told _))
  exact ite_relates _ _ _ _ _ lost (.refl s)

theorem judgeLiveness_keeps : KeepsClaims s (judgeLiveness c s) :=
  (portLate_keeps c s).trans (portLost_keeps c _)

end

/-! ## Start-up (R143, R169) -/

section
variable (s : State)

theorem powerUp_keeps (straps : BitVec 2) : KeepsClaims s (powerUp straps s) :=
  ite_relates _ _ _ _ _ (blockReset_keeps s _ _ _ _ _ _ _) (blockReset_keeps s _ _ _ _ _ _ _)

theorem resetNLow_keeps : KeepsClaims s (resetNLow s) :=
  ite_relates _ _ _ _ _ (.same rfl) (blockReset_keeps s _ _ _ _ _ _ _)

theorem resetNRelease_keeps (straps : BitVec 2) : KeepsClaims s (resetNRelease straps s) :=
  ite_relates _ _ _ _ _ (blockReset_keeps s _ _ _ _ _ _ _) (.same rfl)

/-- R143: a tag code is loaded naming a written record of the scene, or none. -/
theorem loadedTag_written {x : Scene} {code : Byte} {n : TagId}
    (names : tagRefOfCode (loadedTag x code) = some (.record n)) : x.tags.look n ≠ none := by
  intro free
  unfold loadedTag at names
  split at names
  · rename_i m record
    split_ifs at names with unwritten
    · simp [tagRefOfCode, tagCodeNone] at names
    · rw [record] at names
      cases names
      rw [free] at unwritten
      exact unwritten rfl
  · rename_i other
    exact other n names

theorem loadedEntry_counted (x : Scene) (d : DestId) :
    (loadedEntry x d).counted = (tagRefOfCode (loadedTag x (x.patch.look d).tag)).getD .none := rfl

/-- R143: the counts are computed from the loaded entries. -/
theorem putScene_counted (x : Scene) (outcome : LoadOutcome) : Counted (fun _ => 0) (putScene x outcome s) := by
  have entry (d : DestId) : (putScene x outcome s).entries.look d = loadedEntry x d := by
    simp only [putScene, Table.look_gen]
  have record (n : TagId) : (putScene x outcome s).tags.look n =
      ⟨x.tags.look n, entryNamings (putScene x outcome s) n⟩ := by
    simp only [entryNamings, putScene, Table.look_gen, loadedRecord]
  intro n
  simp only [record, Nat.add_zero, true_and]
  intro free
  unfold entryNamings
  refine List.countP_eq_zero.mpr fun d _ => ?_
  rw [entry, loadedEntry_counted, decide_eq_true_eq]
  intro names
  cases code : tagRefOfCode (loadedTag x (x.patch.look d).tag) with
  | none =>
    rw [code] at names
    cases names
  | some r =>
    rw [code] at names
    exact loadedTag_written (code.trans (congrArg some names)) free

theorem openAllFrames_namings : SameNamings s (openAllFrames s) := by
  refine foldl_relates _ SameNamings.refl (fun _ _ _ => .trans) _ (fun t l => ⟨?_, ?_, fun d => ?_⟩) _ s
  · simp only [latchTags, modLane_tags, modWriter_tags]
  · simp only [latchTags, modLane_takes, modWriter_takes]
  · simp only [latchTags, modLane_entries, modWriter_entries]

theorem alignAll_namings : SameNamings s (alignAll s) := by
  unfold alignAll
  refine ⟨rfl, rfl, fun d => ?_⟩
  rw [Table.look_gen]
  rfl

theorem setFlag_namings (f : FaultFlag) : SameNamings s (setFlag f s) := by
  obtain ⟨v, p, h⟩ := setFlag_frame f s
  rw [h]
  exact ⟨rfl, rfl, fun _ => rfl⟩

theorem finishStartup_namings : SameNamings s (finishStartup s) := by
  have told (l : List FaultGroup) (t : State) (start : SameNamings s t) :
      SameNamings s (l.foldl (fun t g => handFault g t) t) :=
    start.trans (foldl_relates _ SameNamings.refl (fun _ _ _ => .trans) (fun t g => handFault g t)
      (fun _ _ => ⟨rfl, rfl, fun _ => rfl⟩) l t)
  unfold finishStartup
  exact told _ _ ⟨rfl, rfl, fun _ => rfl⟩

theorem putScene_takes (x : Scene) (outcome : LoadOutcome) : (putScene x outcome s).takes = s.takes := rfl

/-- R93, R143, R163: what follows the load of the scene leaves records, waiting changes and counted references. -/
theorem sceneLoad_namings (loading : s.phase = .starting) : SameNamings
    (putScene (chosenScene s.store).1 (chosenScene s.store).2 (closeAllFrames s)) (sceneLoad s) := by
  unfold sceneLoad
  rw [if_pos loading]
  dsimp only
  have loaded := (openAllFrames_namings
    (putScene (chosenScene s.store).1 (chosenScene s.store).2 (closeAllFrames s))).trans (alignAll_namings _)
  exact (ite_relates (fun _ t => SameNamings _ t) _ s _ _ (loaded.trans (setFlag_namings _ _)) loaded).trans
    (finishStartup_namings _)

theorem closeAllFrames_takes : (closeAllFrames s).takes = s.takes := by
  obtain ⟨r, w, m, i, e, v, p, closed⟩ := foldl_relates WorksFrame WorksFrame.refl WorksFrame.trans
    (fun s l => closeFrame l s) (fun s l => closeFrame_works l s) (List.finRange 8) s
  rw [closeAllFrames, closed]

/-- R131, R143: until the load no change waits, and the counts are those of the loaded entries. -/
theorem sceneLoad_keeps : KeepsClaims s (sceneLoad s) := by
  by_cases loading : s.phase = .starting
  · have same := sceneLoad_namings s loading
    have takes : (sceneLoad s).takes = s.takes := 
      same.takes.trans ((putScene_takes ..).trans (closeAllFrames_takes s))
    have empty (form : ClaimsForm s) (l : LaneId) : (s.takes.look l).allChanges = [] :=
      ((claimsForm_iff s).mp form).2.2 (by rw [loading]; decide) l
    refine ⟨fun form => claimsForm_of_empty fun l => by rw [takes]; exact empty form l, fun form _ => ?_⟩
    have waiting : waitingNamings (sceneLoad s) = fun _ => 0 := by
      funext n
      unfold waitingNamings
      rw [takes]
      exact Finset.sum_eq_zero fun l _ => by rw [empty form l]; rfl
    rw [countForm_iff, waiting]
    exact (putScene_counted _ _ _).congr same.tags same.counted
  · rw [sceneLoad, if_neg loading]
    exact .refl s

end

end Sys2Proof.Machine.ClaimsKept
end

section
/-! PROOFS. Every step keeps the waiting changes under their holders' claims and the counts exact (R117, R128, R138,
R140): the commands of the control ports, and the step. -/

namespace Sys2Proof.Machine.ClaimsKept

open Withdrawals CountsKept WaitingMoves

/-! ## Commands on a control port -/

/-- The effect of a command, which is taken while the engine runs (R147, R150), keeps both forms. -/
def EffectKeeps (effect : Effect) : Prop := ∀ s, s.phase = .running → KeepsClaims s (effect s).1

/-- A command that changes nothing but its own port (R176). -/
theorem EffectKeeps.readOnly {effect : Effect} (h : ∀ s, (effect s).1 = s) : EffectKeeps effect := by
  intro s _
  rw [h s]
  exact .refl s

/-- What follows a write transaction's judgement leaves what the forms speak of; the engine runs at the judgement. -/
theorem writeEnds_keeps (c : CpId) (code tag : Byte) (n : Nat) {judge : State → State}
    (h : ∀ s, s.phase = .running → KeepsClaims s (judge s)) (s : State) :
    KeepsClaims s (writeEnds c code tag n judge s) := by
  unfold writeEnds
  split_ifs with powered begins
  · exact .same rfl
  · have running : s.phase = .running := by
      simpa [awake, begins] using powered
    dsimp only
    split
    · exact .same rfl
    · refine .after (h _ ?_) rfl
      exact running
  · exact .refl s

theorem command_keeps (c : CpId) (code tag : Byte) {effect : Effect} (h : EffectKeeps effect) (s : State) :
    KeepsClaims s (command c code tag effect s) := by
  refine writeEnds_keeps c code tag 40 (fun u running => ?_) s
  have ran : KeepsClaims u
      (effect (modPort c (fun p => { p with slot := .executing code tag }) (refresh c u))).1 := by
    refine .after (h _ ?_) rfl
    exact running
  unfold runCommand
  dsimp only
  split
  · exact ran.before rfl
  · exact ran

theorem badBlock_keeps (c : CpId) (bytes : List Byte) (s : State) : KeepsClaims s (badBlock c bytes s) :=
  writeEnds_keeps _ _ _ _ (fun u _ => by
    unfold rejectBlock
    split
    · exact .after (setFlag_keeps _ _) rfl
    · exact .refl u) s

/-! ### Lane commands (R20) -/

theorem laneCommand_keeps (c : CpId) (lane : Byte) (fieldsOk : Bool) (allowed : LaneState → Bool)
    {effect : LaneId → State → State} (h : ∀ l s, KeepsClaims s (effect l s)) :
    EffectKeeps (laneCommand c lane fieldsOk allowed effect) := by
  intro s _
  unfold laneCommand
  split
  · exact .refl s
  · split_ifs
    iterate 3 exact .refl s
    exact h _ s

theorem departRun_keeps (l : LaneId) (s : State) : KeepsClaims s (departRun l s) :=
  (modReader_keeps s l _).trans (modWriter_keeps _ l _)

theorem laneEnable_keeps (l : LaneId) (s : State) : KeepsClaims s (laneEnable l s) :=
  (modLane_keeps s l _).trans (laneNotice_keeps _ l)

theorem laneDisable_keeps (l : LaneId) (s : State) : KeepsClaims s (laneDisable l s) := by
  have off (u : State) : KeepsClaims u (laneNotice l (modLane l (fun n => { n with
      state := .off, coastCount := 0, relockSeen := false, resumeArmed := false, parkCause := none }) u)) :=
    (modLane_keeps u l _).trans (laneNotice_keeps _ l)
  unfold laneDisable
  dsimp only
  split
  · exact .refl s
  · exact (departRun_keeps l s).trans (off _)
  · exact (leaveParked_keeps s l).trans (off _)
  · exact off s

theorem lanePark_keeps (l : LaneId) (s : State) : KeepsClaims s (lanePark l s) :=
  KeepsClaims.trans (ite_relates _ _ _ _ _ (departRun_keeps l s) (.refl s)) (enterParked_keeps _ l _)

theorem laneResume_keeps (l : LaneId) (s : State) : KeepsClaims s (laneResume l s) :=
  ((leaveParked_keeps s l).trans (modLane_keeps _ l _)).trans (laneNotice_keeps _ l)

theorem setParkMode_keeps (mode : Byte) (l : LaneId) (s : State) : KeepsClaims s (setParkMode mode l s) := by
  unfold setParkMode
  split
  · exact modLane_keeps s l _
  · exact .refl s

/-! ### Claims (R98 to R103, R109) -/

theorem effectClaim_keeps (c : CpId) (first : BitVec 16) (count : Byte) : EffectKeeps (effectClaim c first count) := by
  intro s _
  unfold effectClaim
  dsimp only
  split
  · exact .refl s
  · split
    · exact .refl s
    · exact takeItems_keeps c _ s

theorem effectRelease_keeps (c : CpId) (first : BitVec 16) (count : Byte) :
    EffectKeeps (effectRelease c first count) := by
  intro s _
  unfold effectRelease
  dsimp only
  split
  · exact .refl s
  · exact freeItems_keeps c _ s

theorem effectSeize_keeps (c : CpId) (first : BitVec 16) (count : Byte) : EffectKeeps (effectSeize c first count) := by
  intro s _
  unfold effectSeize
  dsimp only
  split_ifs
  · exact .refl s
  · exact .refl s
  · exact .foldl _ (fun s i => seizeItem_keeps c i s) _ s

theorem effectSetWatch_keeps (c : CpId) (late : BitVec 16) (lost : Byte) :
    EffectKeeps (effectSetWatch c late lost) := by
  intro s _
  unfold effectSetWatch
  split_ifs
  · exact .refl s
  · exact .refl s
  · exact .after (.foldl _ (fun s k => judgeLiveness_keeps k s) _ _) rfl

/-! ### Take queues (R116 to R130) -/

/-- R116: the port holds the destination, whose timing lane takes the change, and the record it names is written. -/
theorem effectStage_keeps (c : CpId) (dest source : BitVec 16) (fade tagRef : Byte) (delay : BitVec 16) :
    EffectKeeps (effectStage c dest source fade tagRef delay) := by
  intro s running
  unfold effectStage
  split
  · exact .refl s
  · dsimp only
    split_ifs with other unwritten full
    iterate 3 exact .refl s
    exact stageChange_keeps running ⟨not_not.mp other, rfl⟩ (Bool.eq_false_iff.mpr unwritten)

/-- R118. -/
theorem effectUnstage_keeps (c : CpId) (dest : BitVec 16) : EffectKeeps (effectUnstage c dest) := by
  intro s _
  unfold effectUnstage
  split
  · exact .refl s
  · rename_i d _
    dsimp only
    split_ifs
    · exact .refl s
    · exact ended_keeps (f := fun t => { t with staging := t.staging.put c (changesNotFor d (t.staging.look c)) })
        (putStaging_within _ c List.filter_sublist) fun n => namedBy_unstaged _ c n d

/-- R119: closing moves the staging batch to the queue. -/
theorem effectClose_keeps (c : CpId) (lane delay : Byte) : EffectKeeps (effectClose c lane delay) := by
  intro s _
  unfold effectClose
  split
  · exact .refl s
  · dsimp only
    split_ifs
    iterate 3 exact .refl s
    exact ended_keeps (gone := []) (closed_within _ c _) fun n => (namedBy_closed _ c n _).symm

/-- R126. -/
theorem effectCancel_keeps (c : CpId) (lane position closure : Byte) :
    EffectKeeps (effectCancel c lane position closure) := by
  intro s _
  unfold effectCancel
  split
  · exact .refl s
  · rename_i l _
    split_ifs
    · exact .refl s
    · split
      · exact .refl s
      · rename_i b batch
        have ended : KeepsClaims s (endChanges b.changes
            (modTake l (TakeUnit.cancelled (takeDue s l) position.toNat) s)) :=
          ended_keeps (cancelled_within _ _ _) fun n => namedBy_cancelled _ n _ batch
        split_ifs
        · exact .refl s
        · exact .refl s
        · exact ended
        · exact ended.trans (setNotices_keeps _ [b.owner] _)

theorem effectHold_keeps (on : Bool) (c : CpId) (lane : Byte) : EffectKeeps (effectHold on c lane) := by
  intro s _
  unfold effectHold
  split
  · exact .refl s
  · split
    · exact .refl s
    · split_ifs
      · exact .refl s
      · exact modTake_marks_keeps s _ (f := fun t => { t with holdCommand := on }) (fun _ => rfl) fun _ => rfl

/-! ### Entries, audio ports and records (R66, R75, R91, R135, R138) -/

theorem effectNudge_keeps (c : CpId) (dest : BitVec 16) (amount : Byte) : EffectKeeps (effectNudge c dest amount) := by
  intro s _
  unfold effectNudge
  split
  · exact .refl s
  · split_ifs
    iterate 3 exact .refl s
    exact modEntry_keeps s _ (f := fun e => { e with nudge := some amount.toInt }) fun _ => rfl

theorem effectCheckTest_keeps (c : CpId) (dest : BitVec 16) : EffectKeeps (effectCheckTest c dest) := by
  intro s _
  unfold effectCheckTest
  split
  · exact .refl s
  · split_ifs
    · exact .refl s
    · exact modEntry_keeps s _ (f := fun e => { e with code := e.computedCode + 1 }) fun _ => rfl

theorem effectSetPortRef_keeps (c : CpId) (port lane : Byte) : EffectKeeps (effectSetPortRef c port lane) := by
  intro s _
  unfold effectSetPortRef
  split
  · split_ifs with senior queued
    · exact .refl s
    · exact .refl s
    · exact setRefLane_keeps _ _ (Bool.eq_false_iff.mpr queued)
  · exact .refl s

theorem effectWriteTag_keeps (c : CpId) (index kind length : Byte) (label : Table Byte 16) (user : Table Byte 8) :
    EffectKeeps (effectWriteTag c index kind length label user) := by
  intro s _
  unfold effectWriteTag
  dsimp only
  split
  · exact .refl s
  · split_ifs
    · exact .refl s
    · exact .refl s
    · exact modTag_keeps s (f := fun r => { r with content := some ⟨kind, labelOf length.toNat label, user, some c⟩ })
        rfl nofun

/-- R138: a record that is named is not freed. -/
theorem effectFreeTag_keeps (c : CpId) (index : Byte) : EffectKeeps (effectFreeTag c index) := by
  intro s _
  unfold effectFreeTag
  dsimp only
  split
  · exact .refl s
  · split_ifs with empty other named
    iterate 3 exact .refl s
    exact modTag_keeps s (f := fun r => { r with content := none }) rfl fun _ => .inr (not_not.mp named)

theorem effectSetTone_keeps (c : CpId) (level : Byte) : EffectKeeps (effectSetTone c level) := by
  intro s _
  unfold effectSetTone
  split_ifs <;> exact .same rfl

/-! ### Notices, flags, saves and restarts (R151, R159, R165, R171, R172) -/

theorem effectClearNotices_keeps (c : CpId) (notices : Byte) : EffectKeeps (effectClearNotices c notices) := by
  intro s _
  unfold effectClearNotices
  split <;> exact .same rfl

theorem effectSetNoticeMask_keeps (c : CpId) (noticeMask faultMask : Byte) :
    EffectKeeps (effectSetNoticeMask c noticeMask faultMask) := by
  intro s _
  unfold effectSetNoticeMask
  split <;> exact .same rfl

theorem effectSetLineMask_keeps (c : CpId) (mask : Byte) : EffectKeeps (effectSetLineMask c mask) := by
  intro s _
  unfold effectSetLineMask
  split_ifs <;> exact .same rfl

theorem effectSaveScene_keeps (c : CpId) : EffectKeeps (effectSaveScene c) := by
  intro s _
  unfold effectSaveScene
  split_ifs <;> exact .same rfl

theorem effectSetGuard_keeps (c : CpId) (value : Byte) : EffectKeeps (effectSetGuard c value) := by
  intro s _
  unfold effectSetGuard
  split_ifs <;> exact .same rfl

theorem effectClearFaults_keeps (selection : BitVec 64) : EffectKeeps (effectClearFaults selection) := by
  intro s _
  unfold effectClearFaults
  split
  · exact .refl s
  · obtain ⟨v, p, f, cleared⟩ := clearFlags_frame (selection.setWidth 56) s
    dsimp only [answer]
    rw [cleared]
    exact .same rfl

theorem restartChecks_keeps (c : CpId) {effect : Effect} (h : EffectKeeps effect) :
    EffectKeeps (restartChecks c effect) := by
  intro s running
  unfold restartChecks
  split_ifs
  · exact .refl s
  · exact .refl s
  · exact h s running

theorem restartFull_keeps (straps : BitVec 2) (s : State) : KeepsClaims s (restartFull straps s) :=
  .before (blockReset_keeps s s.pending s.now s.choices .starting s.resetLow (seniorOf straps) s.store) rfl

theorem restartRetain_keeps (s : State) : KeepsClaims s (restartRetain s) := by
  unfold restartRetain
  exact .after (setFlags_keeps _ _) rfl

/-! ## The step -/

/-- Every command answers a next state in which both forms are kept. -/
def Keeps (o : Host.Outcome State Fault Refusal) (s : State) : Prop := ∃ t, o = .next t ∧ KeepsClaims s t

theorem Keeps.next {s t : State} (h : KeepsClaims s t) : Keeps (.next t) s := ⟨t, rfl, h⟩

/-- A command that a control port has been given keeps what its effect keeps. -/
theorem Keeps.of_command {effect : Effect} (h : EffectKeeps effect) (c : CpId) (code tag : Byte) (s : State) :
    Keeps (.next (command c code tag effect s)) s := .next (command_keeps c code tag h s)

theorem exec_keeps (i : Instr) (s : State) : Keeps (exec i s) s :=
  match i with
  | .powerUp straps => .next (powerUp_keeps s straps)
  | .resetNLow => .next (resetNLow_keeps s)
  | .resetNRelease straps => .next (resetNRelease_keeps s straps)
  | .sceneLoad => .next (sceneLoad_keeps s)
  | .inputFrameStart l => .next (inputFrameStart_keeps s l)
  | .lateFrameStart l => .next (lateFrameStart_keeps s l)
  | .candidateLapse l => .next (ite_relates _ _ _ _ _ (modLane_keeps s l _) (.refl s))
  | .frameStart l => .next (ite_relates _ _ _ _ _ (frameStart_keeps s l) (.refl s))
  | .coastExpiry l =>
    .next (ite_relates _ _ _ _ _ (enterParked_keeps s l .coastExpiry) (.refl s))
  | .switchPoint l => .next (switchPoint_keeps s l)
  | .take l => .next (take_keeps s l)
  | .soundCell l words => .next (soundCell_keeps s l words)
  | .cellLine l line => .next (cellLine_keeps s l line)
  | .wordClockFrameStart p xs rf => .next (wordClockFrameStart_keeps s p xs rf)
  | .fadeEnd d => .next (modEntry_keeps s d (by exact fun _ => rfl))
  | .portClockLost p => .next (portClockLost_keeps s p)
  | .internalTimerPeriod p rf => .next (internalTimerPeriod_keeps s p rf)
  | .portRegain p => .next (portRegain_keeps s p)
  | .scrubVisit => .next (scrubVisit_keeps s)
  | .portLate c => .next (portLate_keeps c s)
  | .portLost c => .next (portLost_keeps c s)
  | .saveComplete readBack => .next (saveComplete_keeps s readBack)
  | .saveTimeout => .next (saveTimeout_keeps s)
  | .summaryPoll _ _ => .next (ite_relates _ _ _ _ _ (.same rfl) (.refl s))
  | .readResponse _ _ => .next (ite_relates _ _ _ _ _ (.same rfl) (.refl s))
  | .badBlock c bytes => .next (badBlock_keeps c bytes s)
  | .overrun c _ => .next (writeEnds_keeps c _ _ _ (fun u _ => .refl u) s)
  | .starting c _ => .next (writeEnds_keeps c _ _ _ (fun u _ => .refl u) s)
  | .undefinedCommand c code tag => .of_command (.readOnly fun _ => rfl) c code tag s
  | .keepalive c tag => .of_command (.readOnly fun _ => rfl) c _ tag s
  | .readStatus c tag => .of_command (.readOnly fun _ => rfl) c _ tag s
  | .clearNotices c tag notices => .of_command (effectClearNotices_keeps c notices) c _ tag s
  | .setNoticeMask c tag n f => .of_command (effectSetNoticeMask_keeps c n f) c _ tag s
  | .claim c tag first count => .of_command (effectClaim_keeps c first count) c _ tag s
  | .release c tag first count => .of_command (effectRelease_keeps c first count) c _ tag s
  | .seize c tag first count => .of_command (effectSeize_keeps c first count) c _ tag s
  | .readClaims c tag first count =>
    .of_command (.readOnly (EntriesKept.effectReadClaims_state · first count)) c _ tag s
  | .setWatch c tag late lost => .of_command (effectSetWatch_keeps c late lost) c _ tag s
  | .laneEnable c tag lane => .of_command (laneCommand_keeps c lane _ _ laneEnable_keeps) c _ tag s
  | .laneDisable c tag lane => .of_command (laneCommand_keeps c lane _ _ laneDisable_keeps) c _ tag s
  | .lanePark c tag lane => .of_command (laneCommand_keeps c lane _ _ lanePark_keeps) c _ tag s
  | .laneResume c tag lane => .of_command (laneCommand_keeps c lane _ _ laneResume_keeps) c _ tag s
  | .setEmit c tag lane _ =>
    .of_command (laneCommand_keeps c lane _ _ fun l s => modLane_keeps s l _) c _ tag s
  | .setStrip c tag lane _ =>
    .of_command (laneCommand_keeps c lane _ _ fun l s => modLane_keeps s l _) c _ tag s
  | .setParkMode c tag lane mode =>
    .of_command (laneCommand_keeps c lane _ _ (setParkMode_keeps mode)) c _ tag s
  | .setCoastLimit c tag lane _ =>
    .of_command (laneCommand_keeps c lane _ _ fun l s => modLane_keeps s l _) c _ tag s
  | .readLane c tag lane part track =>
    .of_command (.readOnly (EntriesKept.effectReadLane_state · lane part track)) c _ tag s
  | .stage c tag dest source fade tagRef delay =>
    .of_command (effectStage_keeps c dest source fade tagRef delay) c _ tag s
  | .unstage c tag dest => .of_command (effectUnstage_keeps c dest) c _ tag s
  | .close c tag lane delay => .of_command (effectClose_keeps c lane delay) c _ tag s
  | .cancel c tag lane position closure =>
    .of_command (effectCancel_keeps c lane position closure) c _ tag s
  | .hold c tag lane => .of_command (effectHold_keeps true c lane) c _ tag s
  | .run c tag lane => .of_command (effectHold_keeps false c lane) c _ tag s
  | .readQueue c tag lane => .of_command (.readOnly (EntriesKept.effectReadQueue_state · c lane)) c _ tag s
  | .readEntry c tag dest => .of_command (.readOnly (EntriesKept.effectReadEntry_state · dest)) c _ tag s
  | .nudge c tag dest amount => .of_command (effectNudge_keeps c dest amount) c _ tag s
  | .checkTest c tag dest => .of_command (effectCheckTest_keeps c dest) c _ tag s
  | .readPort c tag port => .of_command (.readOnly (EntriesKept.effectReadPort_state · port)) c _ tag s
  | .setPortRef c tag port lane => .of_command (effectSetPortRef_keeps c port lane) c _ tag s
  | .setTone c tag level => .of_command (effectSetTone_keeps c level) c _ tag s
  | .writeTag c tag index kind length label user =>
    .of_command (effectWriteTag_keeps c index kind length label user) c _ tag s
  | .freeTag c tag index => .of_command (effectFreeTag_keeps c index) c _ tag s
  | .readTag c tag index => .of_command (.readOnly (EntriesKept.effectReadTag_state · index)) c _ tag s
  | .readFaults c tag => .of_command (.readOnly fun _ => rfl) c _ tag s
  | .clearFaults c tag selection => .of_command (effectClearFaults_keeps selection) c _ tag s
  | .setLineMask c tag mask => .of_command (effectSetLineMask_keeps c mask) c _ tag s
  | .saveScene c tag => .of_command (effectSaveScene_keeps c) c _ tag s
  | .setGuard c tag value => .of_command (effectSetGuard_keeps c value) c _ tag s
  | .restartFull c tag straps =>
    .of_command (restartChecks_keeps c fun s _ => restartFull_keeps straps s) c _ tag s
  | .restartRetain c tag mode => .of_command (by
      split
      · exact restartChecks_keeps c fun s _ => restartRetain_keeps s
      · exact .readOnly fun _ => rfl) c _ tag s
  | .entryUpset d u => .next (entryUpset_keeps s d u)
  | .powerLoss => .next (blockReset_keeps s _ _ _ _ _ _ _)
  | .chipSelectFall _ => .next (ite_relates _ _ _ _ _ (.same rfl) (.refl s))

/-- The clock touches no waiting change, no claim and no count (log 1, log 3). -/
theorem idle_keeps (s : State) : KeepsClaims s (idle s) := by
  unfold idle
  split <;> exact .same rfl

/-- A step is the clock or one command, and `exec_keeps` holds of each command. -/
theorem step_keeps {s t : State} (stepped : step s = .next t) : KeepsClaims s t := by
  unfold step at stepped
  split at stepped
  · cases stepped
    exact idle_keeps s
  · rename_i i rest _
    obtain ⟨u, ran, keeps⟩ := exec_keeps i { s with pending := rest }
    cases ran.symm.trans stepped
    exact .after keeps rfl

/-- Settles O7: both forms are kept by every step, the counts where the claims are in form. -/
theorem everyStepKeepsClaimsAndCounts : Obligations.EveryStepKeepsClaimsAndCounts :=
  ⟨fun _ _ claims stepped => (step_keeps stepped).claims claims,
    fun _ _ claims counts stepped => (step_keeps stepped).counts claims counts⟩

end Sys2Proof.Machine.ClaimsKept
end

section
/-! PROOFS. STAGE, UNSTAGE and CLOSE (R116 to R119): the fields that spell a change, what a Take Unit's pool holds after
a batch is put, and each command's refusals and effect. -/

namespace Sys2Proof.Machine.StagingCommands

open WaitingMoves ClaimsKept Settings

/-! ## The fields of STAGE (R175) -/

section
variable {d v w : BitVec 16} {f r : Byte} {x : Change}

/-- Each field of a change is spelt by its own field of the command. -/
theorem changeOf_eq_some : changeOf d v f r w = some x ↔ destField d = some x.dest ∧
    asFin 258 v.toNat = some x.source ∧ fadeField f = some x.fade ∧ changeTagField r = some x.tag ∧
      changeDelayField w = some x.delay := by
  unfold changeOf
  split
  · rename_i dest source fade tag delay
    rw [dest, source, fade, tag, delay]
    simp only [Option.some.injEq]
    constructor
    · rintro rfl
      exact ⟨rfl, rfl, rfl, rfl, rfl⟩
    · rintro ⟨rfl, rfl, rfl, rfl, rfl⟩
      rfl
  · rename_i short
    refine ⟨nofun, fun ⟨dest, source, fade, tag, delay⟩ => ?_⟩
    exact (short _ _ _ _ _ dest source fade tag delay).elim

/-- A byte at or above a bound is none below it. -/
theorem ne_of_le_toNat {b k : Byte} {n : Nat} (above : n ≤ b.toNat) (below : k.toNat < n) : b ≠ k := by
  rintro rfl
  omega

theorem fadeField_above (above : 4 ≤ f.toNat) : fadeField f = none := by
  rw [fadeField, if_neg (ne_of_le_toNat above (by decide)), if_neg (ne_of_le_toNat above (by decide)),
    if_neg (ne_of_le_toNat above (by decide)), if_neg (ne_of_le_toNat above (by decide))]

theorem changeTagField_above (above : 0x42 ≤ r.toNat) (present : r ≠ 0xFF) : changeTagField r = none := by
  rw [changeTagField, if_neg present, ChangesApplied.tagRefOfCode_unnamed above, Option.map_none]

theorem changeDelayField_outside (present : w ≠ 0) (outside : w.toNat < 16 ∨ 2048 < w.toNat) :
    changeDelayField w = none := by
  rw [changeDelayField, if_neg present, if_neg (by omega)]

/-- R175: the fade codes. -/
theorem fadeField_below (below : f.toNat < 4) : ∃ n, fadeField f = some n ∧ (f = 0 → n = 0) ∧ (f = 1 → n = 64) ∧
    (f = 2 → n = 256) ∧ (f = 3 → n = 1024) := by
  have codes : f = 0 ∨ f = 1 ∨ f = 2 ∨ f = 3 := by bv_omega
  rcases codes with rfl | rfl | rfl | rfl
  · exact ⟨0, rfl, by decide⟩
  · exact ⟨64, rfl, by decide⟩
  · exact ⟨256, rfl, by decide⟩
  · exact ⟨1024, rfl, by decide⟩

/-- R175: the tag codes. -/
theorem changeTagField_inRange (known : r.toNat < 0x42 ∨ r = 0xFF) : ∃ t, changeTagField r = some t ∧
    (r = 0xFF → t = none) ∧ (r = 0x40 → t = some .none) ∧ (r = 0x41 → t = some .pass) ∧
      ∀ n : TagId, r.toNat = n.val → t = some (.record n) := by
  have codes : r = 0xFF ∨ r = 0x40 ∨ r = 0x41 ∨ r.toNat < 64 := by bv_omega
  rcases codes with rfl | rfl | rfl | record
  · exact ⟨none, rfl, by decide⟩
  · exact ⟨some .none, rfl, by decide⟩
  · exact ⟨some .pass, rfl, by decide⟩
  · have apart (k : Byte) (above : 64 ≤ k.toNat) : r ≠ k := by
      rintro rfl
      omega
    refine ⟨some (.record ⟨r.toNat, record⟩), ?_, fun h => (apart _ (by decide) h).elim,
      fun h => (apart _ (by decide) h).elim, fun h => (apart _ (by decide) h).elim, fun n code => ?_⟩
    · rw [changeTagField, if_neg (apart _ (by decide)), ChangesApplied.tagRefOfCode_record (n := ⟨r.toNat, record⟩) rfl,
        Option.map_some]
    · have same : (⟨r.toNat, record⟩ : TagId) = n := Fin.ext code
      rw [same]

/-- R175: the delay field; 0 is an absent target. -/
theorem changeDelayField_inRange (known : w = 0 ∨ (16 ≤ w.toNat ∧ w.toNat ≤ 2048)) :
    ∃ t, changeDelayField w = some t ∧ (w = 0 → t = none) ∧ (w ≠ 0 → t = some w.toNat) := by
  by_cases absent : w = 0
  · exact ⟨none, if_pos absent, fun _ => rfl, fun present => (present absent).elim⟩
  · refine ⟨some w.toNat, ?_, fun h => (absent h).elim, fun _ => rfl⟩
    rw [changeDelayField, if_neg absent, if_pos (known.resolve_left absent)]

end

/-! ## Effects beside the caller's port -/

section
variable (s : State) (c : CpId) (f : CtrlPort → CtrlPort)

theorem countUp_modPort (r : TagRef) : countUp r (modPort c f s) = modPort c f (countUp r s) := by
  cases r <;> rfl

theorem countDown_modPort (r : TagRef) : countDown r (modPort c f s) = modPort c f (countDown r s) := by
  cases r <;> rfl

/-- Changes end beside the control ports. -/
theorem endChanges_modPort (cs : List Change) : endChanges cs (modPort c f s) = modPort c f (endChanges cs s) := by
  induction cs generalizing s with
  | nil => rfl
  | cons x cs ih =>
    refine Eq.trans ?_ (ih (endChange x s))
    exact congrArg (endChanges cs) (countDown_modPort s c f _)

end

theorem modTake_congr {l : LaneId} {f g : TakeUnit → TakeUnit} {s : State}
    (h : f (s.takes.look l) = g (s.takes.look l)) : modTake l f s = modTake l g s := by
  rw [modTake, h, modTake]

theorem timingLane_served (s : State) (c : CpId) (code tag : Byte) (d : DestId) :
    timingLane (served s c code tag) d = timingLane s d := rfl

/-- A Take Unit with a port's staging batch put. -/
theorem poolCount_putStaging (t : TakeUnit) (c : CpId) (cs : List Change) :
    TakeUnit.poolCount { t with staging := t.staging.put c cs } + (t.staging.look c).length =
      t.poolCount + cs.length := by
  unfold TakeUnit.poolCount
  dsimp only
  match c with
  | 0 | 1 | 2 =>
    simp only [Table.look_put, Fin.reduceEq, if_true, if_false]
    omega

/-! ## STAGE (R116, R117, R140) -/

section
variable {c : CpId} {l : LaneId} {x y : Change} {a b : List Change} {s : State}

theorem stageChange_ports : (stageChange c l x s).ports = s.ports := by
  obtain ⟨g, frame⟩ := stageChange_frame (c := c) (l := l) (x := x) (s := s)
  rw [frame]
  rfl

theorem stageChange_take : (stageChange c l x s).takes.look l = { s.takes.look l with
    staging := (s.takes.look l).staging.put c (putChange x ((s.takes.look l).staging.look c)) } := by
  obtain ⟨g, frame⟩ := stageChange_frame (c := c) (l := l) (x := x) (s := s)
  rw [frame]
  show (staged c l x s).takes.look l = _
  exact modTake_look_self ..

theorem stageChange_modPort (k : CpId) (f : CtrlPort → CtrlPort) :
    stageChange c l x (modPort k f s) = modPort k f (stageChange c l x s) := by
  rw [stageChange_eq, stageChange_eq, ← endChanges_modPort, ← countUp_modPort]
  rfl

/-- R116: no change of the batch is for the destination. -/
theorem stageChange_added (absent : ∀ y ∈ (s.takes.look l).staging.look c, y.dest ≠ x.dest) :
    stageChange c l x s = countUp (x.tag.getD .none) (modTake l (fun t =>
      { t with staging := t.staging.put c ((s.takes.look l).staging.look c ++ [x]) }) s) := by
  have put : staged c l x s = modTake l (fun t =>
      { t with staging := t.staging.put c ((s.takes.look l).staging.look c ++ [x]) }) s :=
    modTake_congr (by rw [putChange_absent absent])
  rw [stageChange_eq, changesFor_absent absent, put]
  rfl

/-- R117: the change takes the place of the batch's own for the destination, which ends. -/
theorem stageChange_replaced (batch : (s.takes.look l).staging.look c = a ++ y :: b) (dest : y.dest = x.dest)
    (others : ∀ z ∈ a ++ b, z.dest ≠ x.dest) :
    stageChange c l x s = countDown (y.tag.getD .none) (countUp (x.tag.getD .none) (modTake l (fun t =>
      { t with staging := t.staging.put c (a ++ x :: b) }) s)) := by
  have put : staged c l x s = modTake l (fun t => { t with staging := t.staging.put c (a ++ x :: b) }) s :=
    modTake_congr (by rw [batch, putChange_split dest others])
  rw [stageChange_eq, batch, changesFor_split dest others, put]
  rfl

end

section
variable {c : CpId} {f r : Byte} {d v w : BitVec 16} {x : Change} {s : State}

theorem effectStage_badArg (fields : changeOf d v f r w = none) : effectStage c d v f r w s = refuse .badArg s := by
  rw [effectStage, fields]

variable (fields : changeOf d v f r w = some x)
include fields

theorem effectStage_notOwner (other : s.holders.look (destItem x.dest) ≠ some c) :
    effectStage c d v f r w s = refuse .notOwner s := by
  rw [effectStage, fields]
  exact if_pos other

variable (held : s.holders.look (destItem x.dest) = some c)
include held

theorem effectStage_noTag (free : namesFreeRecord s x = true) :
    effectStage c d v f r w s = refuse .noTag s := by
  rw [effectStage, fields]
  exact (if_neg (not_not.mpr held)).trans (if_pos free)

variable (written : namesFreeRecord s x = false)
include written

/-- The change goes into the batch unless it would be added to a full one. -/
theorem effectStage_written : effectStage c d v f r w s =
    if !stagesDest x.dest ((s.takes.look (timingLane s x.dest)).staging.look c) &&
        (decide (8 ≤ ((s.takes.look (timingLane s x.dest)).staging.look c).length) ||
          decide (32 ≤ (s.takes.look (timingLane s x.dest)).poolCount)) then refuse .full s
    else answer [BitVec.ofNat 8 (putChange x ((s.takes.look (timingLane s x.dest)).staging.look c)).length,
      BitVec.ofNat 8 ((stageChange c (timingLane s x.dest) x s).takes.look (timingLane s x.dest)).poolCount]
        (stageChange c (timingLane s x.dest) x s) := by
  have batch : ((stageChange c (timingLane s x.dest) x s).takes.look (timingLane s x.dest)).staging.look c =
      putChange x ((s.takes.look (timingLane s x.dest)).staging.look c) := by
    rw [stageChange_take, Table.look_put_self]
  rw [effectStage, fields, ← batch]
  refine (if_neg (not_not.mpr held)).trans ((if_neg ?_).trans rfl)
  rw [written]
  decide

end

/-- A change that is put leaves its lane's payload: the batch's length and the pool's (R116, R117). -/
theorem exec_stage {c : CpId} {tag f r : Byte} {d v w : BitVec 16} {x : Change} {s : State} (taken : Takes s c)
    (fields : changeOf d v f r w = some x) (held : s.holders.look (destItem x.dest) = some c)
    (written : namesFreeRecord s x = false) {l : LaneId} (lane : l = timingLane s x.dest)
    (room : (!stagesDest x.dest ((s.takes.look l).staging.look c) &&
      (decide (8 ≤ ((s.takes.look l).staging.look c).length) || decide (32 ≤ (s.takes.look l).poolCount))) = false)
    {n m : Nat} (length : (putChange x ((s.takes.look l).staging.look c)).length = n)
    (pool : (s.takes.look l).poolCount + n = m + ((s.takes.look l).staging.look c).length) :
    exec (.stage c tag d v f r w) s = .next (replied s c 0x20 tag .ok [BitVec.ofNat 8 n, BitVec.ofNat 8 m]
      (stageChange c l x s)) := by
  subst lane length
  have count : ((stageChange c (timingLane s x.dest) x s).takes.look (timingLane s x.dest)).poolCount = m := by
    have put := poolCount_putStaging (s.takes.look (timingLane s x.dest)) c
      (putChange x ((s.takes.look (timingLane s x.dest)).staging.look c))
    rw [stageChange_take]
    dsimp only
    omega
  refine congrArg Host.Outcome.next (command_replied taken 0x20 tag _ .ok _ _ ?_ (by rw [stageChange_ports]))
  refine (effectStage_written (s := served s c 0x20 tag) fields held written).trans
    ((if_neg (Bool.eq_false_iff.mp room)).trans ?_)
  have moved : stageChange c (timingLane s x.dest) x (served s c 0x20 tag) =
      modPort c (servedPort s c 0x20 tag) (stageChange c (timingLane s x.dest) x s) := stageChange_modPort ..
  rw [timingLane_served, moved, ← count]
  rfl

/-- Settles O32, by whether the batch holds a change for the destination. -/
theorem stageAddsOrReplaces : Obligations.StageAddsOrReplaces := by
  intro c tag f r d v w s taken
  refine ⟨fun outside => ?_, fun dest source fade tagRef delay => ?_, fun x fields =>
    ⟨fun other => ?_, fun held free => ?_, ?_, ?_⟩⟩
  · refine next_refused taken .badArg (effectStage_badArg (Option.eq_none_iff_forall_ne_some.mpr fun x spelt => ?_))
    obtain ⟨dest, source, fade, tagRef, delay⟩ := changeOf_eq_some.mp spelt
    rcases outside with above | above | above | ⟨above, present⟩ | ⟨present, bounds⟩
    · cases (destField_eq_none above).symm.trans dest
    · cases (asFin_eq_none above).symm.trans source
    · cases (fadeField_above above).symm.trans fade
    · cases (changeTagField_above above present).symm.trans tagRef
    · cases (changeDelayField_outside present bounds).symm.trans delay
  · obtain ⟨n, fade, cut, short, medium, long⟩ := fadeField_below fade
    obtain ⟨t, tagRef, absent, none, pass, record⟩ := changeTagField_inRange tagRef
    obtain ⟨m, delay, unset, target⟩ := changeDelayField_inRange delay
    exact ⟨⟨⟨d.toNat, dest⟩, ⟨v.toNat, source⟩, n, t, m⟩,
      changeOf_eq_some.mpr ⟨destField_eq_some rfl, asFin_eq_some rfl, fade, tagRef, delay⟩, rfl, rfl,
      cut, short, medium, long, absent, none, pass, record, unset, target⟩
  · exact next_refused taken .notOwner (effectStage_notOwner fields other)
  · exact next_refused taken .noTag (effectStage_noTag fields held free)
  · rintro l mine lane rfl held written absent
    have new := stagesDest_absent absent
    refine ⟨fun full => ?_, fun short pool => ?_⟩
    · subst lane
      refine next_refused taken .full
        ((effectStage_written (s := served s c 0x20 tag) fields held written).trans (if_pos ?_))
      rw [timingLane_served, served_takes, new]
      simpa using full
    · rw [← stageChange_added absent]
      refine exec_stage taken fields held written lane ?_ ?_ ?_
      · simpa [new] using ⟨short, pool⟩
      · rw [putChange_absent absent, List.length_append, List.length_singleton]
      · omega
  · intro l a y b lane batch held written dest others
    rw [← stageChange_replaced batch dest others, batch.symm]
    refine exec_stage taken fields held written lane ?_ ?_ rfl
    · rw [batch, stagesDest_split dest]
      rfl
    · rw [batch, putChange_split dest others]
      simp only [List.length_append, List.length_cons]

/-! ## UNSTAGE and CLOSE (R118, R119) -/

section
variable {c : CpId} {v : BitVec 16} {d : DestId} {y : Change} {a b : List Change} {s : State}

theorem effectUnstage_badArg (above : 256 ≤ v.toNat) : effectUnstage c v s = refuse .badArg s := by
  rw [effectUnstage, destField_eq_none above]

variable (named : v.toNat = d.val)
include named

theorem effectUnstage_empty (absent : ∀ z ∈ (s.takes.look (timingLane s d)).staging.look c, z.dest ≠ d) :
    effectUnstage c v s = refuse .empty s := by
  rw [effectUnstage, destField_eq_some named]
  exact if_pos (by rw [stagesDest_absent absent]; rfl)

/-- R118: the change leaves the batch and ends. -/
theorem effectUnstage_staged (batch : (s.takes.look (timingLane s d)).staging.look c = a ++ y :: b) (dest : y.dest = d)
    (others : ∀ z ∈ a ++ b, z.dest ≠ d) : effectUnstage c v s = answer [BitVec.ofNat 8 (a ++ b).length]
      (countDown (y.tag.getD .none)
        (modTake (timingLane s d) (fun t => { t with staging := t.staging.put c (a ++ b) }) s)) := by
  rw [effectUnstage, destField_eq_some named]
  dsimp only
  rw [batch, stagesDest_split dest, changesFor_split dest others, changesNotFor_split dest others]
  rfl

end

section
variable {c : CpId} {lane delay : Byte} {l : LaneId} {s : State}

theorem effectClose_badArg (outside : 8 ≤ lane.toNat ∨ 250 < delay.toNat) :
    effectClose c lane delay s = refuse .badArg s := by
  unfold effectClose
  split
  · rfl
  · rename_i l named
    have lane : ¬ 8 ≤ lane.toNat := fun above => by cases (asFin_eq_none above).symm.trans named
    exact if_pos (outside.resolve_left lane)

variable (named : laneField lane = some l) (short : delay.toNat ≤ 250)
include named short

/-- A lane and a delay in range: the batch and the queue decide. -/
theorem effectClose_inRange : effectClose c lane delay s =
    if ((s.takes.look l).staging.look c).isEmpty then refuse .empty s
    else if 8 ≤ (s.takes.look l).queue.length then refuse .full s
    else answer [(s.takes.look l).closureCounter, BitVec.ofNat 8 (s.takes.look l).queue.length]
      (modTake l (TakeUnit.closed c delay.toNat) s) := by
  rw [effectClose, named]
  exact if_neg (Nat.not_lt.mpr short)

end

/-- R119, R120: the Take Unit of a closed batch, field by field. -/
theorem closed_eq (c : CpId) (delay : Nat) : TakeUnit.closed c delay = fun t => { t with
    staging := t.staging.put c []
    queue := t.queue ++ [⟨c, t.closureCounter, delay, t.staging.look c⟩]
    closureCounter := t.closureCounter + 1
    timer := if t.queue = [] then .counting delay else t.timer } := by
  funext t
  unfold TakeUnit.closed
  cases queue : t.queue with
  | nil => rfl
  | cons b rest => rfl

/-- Settles O33, command by command. -/
theorem unstageAndCloseMoveStaging : Obligations.UnstageAndCloseMoveStaging := by
  intro c tag lane delay v s taken
  refine ⟨fun above => next_refused taken .badArg (effectUnstage_badArg above),
    fun outside => next_refused taken .badArg (effectClose_badArg outside), ?_, fun d named absent =>
    next_refused taken .empty (effectUnstage_empty named absent), ?_, fun l named short none => ?_⟩
  · rintro d l a y b named rfl batch dest others
    refine congrArg Host.Outcome.next (command_replied taken 0x21 tag _ .ok _ _ ?_ ?_)
    · refine (effectUnstage_staged (s := served s c 0x21 tag) named batch dest others).trans ?_
      rw [← countDown_modPort]
      rfl
    · cases y.tag.getD .none <;> rfl
  · rintro l t named rfl short staged
    have nonempty : ¬ ((s.takes.look l).staging.look c).isEmpty = true := by rwa [List.isEmpty_iff]
    have effect := effectClose_inRange (c := c) (s := served s c 0x22 tag) named short
    refine ⟨fun full => ?_, fun room => ?_⟩
    · exact next_refused taken .full (effect.trans ((if_neg nonempty).trans (if_pos full)))
    · rw [← closed_eq]
      exact congrArg Host.Outcome.next (command_replied taken 0x22 tag _ .ok _ _
        (effect.trans ((if_neg nonempty).trans (if_neg (Nat.not_le.mpr room)))) rfl)
  · exact next_refused taken .empty ((effectClose_inRange (s := served s c 0x22 tag) named short).trans
      (if_pos (List.isEmpty_iff.mpr none)))

end Sys2Proof.Machine.StagingCommands
end

section
/-! PROOFS. HOLD, RUN and CANCEL (R123, R124, R126, R127): the head's owner or the senior port, the Take Unit that a
cancel leaves, and the switch point that it meets. -/

namespace Sys2Proof.Machine.BatchCommands

open StagingCommands Settings

/-! ## HOLD and RUN (R124) -/

section
variable {on : Bool} {c : CpId} {lane : Byte} {l : LaneId} {b : Batch} {rest : List Batch} {s : State}

theorem isSenior_iff : isSenior s c = true ↔ s.senior = some c := decide_eq_true_iff

theorem effectHold_badArg (above : 8 ≤ lane.toNat) : effectHold on c lane s = refuse .badArg s := by
  have unnamed : laneField lane = none := asFin_eq_none above
  rw [effectHold, unnamed]

variable (named : laneField lane = some l)
include named

theorem effectHold_empty (empty : (s.takes.look l).queue = []) : effectHold on c lane s = refuse .empty s := by
  rw [effectHold, named]
  dsimp only
  rw [empty]

variable (queue : (s.takes.look l).queue = b :: rest)
include queue

theorem effectHold_notOwner (other : b.owner ≠ c) (junior : s.senior ≠ some c) :
    effectHold on c lane s = refuse .notOwner s := by
  rw [effectHold, named]
  dsimp only
  rw [queue]
  exact if_pos ⟨other, decide_eq_false junior⟩

theorem effectHold_allowed (allowed : b.owner = c ∨ s.senior = some c) : effectHold on c lane s =
    answer [TakeUnit.holdByte { s.takes.look l with holdCommand := on }]
      (modTake l (fun t => { t with holdCommand := on }) s) := by
  have passed : ¬ (b.owner ≠ c ∧ isSenior s c = false) := by
    rintro ⟨other, junior⟩
    rw [isSenior_iff.mpr (allowed.resolve_left other)] at junior
    cases junior
  rw [effectHold, named]
  dsimp only
  rw [queue]
  refine (if_neg passed).trans ?_
  rw [modTake_look_self, queue]

end

/-- R176: the hold reasons with the COMMAND hold set, and removed. -/
theorem holdByte_eq (t : TakeUnit) : TakeUnit.holdByte { t with holdCommand := true } = (if t.holdPark then 3 else 1) ∧
    TakeUnit.holdByte { t with holdCommand := false } = if t.holdPark then 2 else 0 := by
  simp only [TakeUnit.holdByte, if_true, Bool.false_eq_true, if_false]
  cases t.holdPark <;> decide

/-- A taken HOLD or RUN of the head's owner or of the senior port sets the hold as its code says. -/
theorem next_hold {on : Bool} {c : CpId} {code tag lane : Byte} {l : LaneId} {b : Batch} {rest : List Batch} {s : State}
    (taken : Takes s c) (named : laneField lane = some l) (queue : (s.takes.look l).queue = b :: rest)
    (allowed : b.owner = c ∨ s.senior = some c) :
    Host.Outcome.next (command c code tag (effectHold on c lane) s) =
      (.next (replied s c code tag .ok [TakeUnit.holdByte { s.takes.look l with holdCommand := on }]
        (modTake l (fun t => { t with holdCommand := on }) s)) : Host.Outcome State Fault Refusal) :=
  congrArg Host.Outcome.next (command_replied taken code tag _ .ok _ _
    (effectHold_allowed (s := served s c code tag) named queue allowed) rfl)

/-! ## The Take Unit after a removal (R126, R127) -/

section
variable (t : TakeUnit) (met : Bool) (k : Nat)

/-- Whatever the timer is loaded with, the batch has left and the rest stays. -/
theorem cancelled_frame : ∃ m h f, t.cancelled met k =
    { t with queue := t.queue.eraseIdx k, timer := m, holdCommand := h, freshHead := f } := by
  unfold TakeUnit.cancelled
  dsimp only
  split
  · obtain ⟨m, h, f, loaded⟩ :=
      TakeUnit.reload_frame { t with queue := t.queue.eraseIdx k, freshHead := t.freshHead || met }
    exact ⟨m, h, f, loaded⟩
  · exact ⟨_, _, _, rfl⟩

theorem cancelled_behind {k : Nat} (behind : k ≠ 0) :
    t.cancelled met k = { t with queue := t.queue.eraseIdx k } := if_neg behind

theorem cancelled_head : t.cancelled met 0 =
    TakeUnit.reload { t with queue := t.queue.tail, freshHead := t.freshHead || met } := by
  rw [TakeUnit.cancelled, if_pos rfl, List.eraseIdx_zero]

end

/-- R127: a queue that empties takes the COMMAND hold with it. -/
theorem reload_holdCommand (t : TakeUnit) : t.reload.holdCommand = (t.holdCommand && !t.queue.isEmpty) := by
  unfold TakeUnit.reload
  split <;> rename_i queue <;> simp [queue]

/-! ## A switch point at which no batch is applied (R123) -/

/-- The head waits past the next switch point, or its timer does not stand at 0. -/
def WaitsOn (t : TakeUnit) : Prop := t.freshHead = true ∨ t.timer ≠ .counting 0

/-- R123: the head behind one that was to be applied waits, whatever its delay. -/
theorem cancelled_waitsOn (t : TakeUnit) : WaitsOn (t.cancelled true 0) := by
  rw [cancelled_head, WaitsOn]
  unfold TakeUnit.reload
  split
  · exact .inr nofun
  · rename_i h _ _
    by_cases now : h.delay = 0
    · exact .inl (by simp [now])
    · exact .inr fun stands => now (TakeTimer.counting.inj stands)

section
variable {l : LaneId} {s : State} (waits : WaitsOn (s.takes.look l))
include waits

theorem takeDue_of_waitsOn : takeDue s l = false := by
  unfold takeDue
  rcases waits with fresh | later
  · rw [fresh]
    simp
  · rw [decide_eq_false later, Bool.and_false]

/-- R120, R123: the timer counts, or the wait ends; no batch leaves. -/
theorem takeTimerWork_queue : ((takeTimerWork l s).takes.look l).queue = (s.takes.look l).queue := by
  unfold takeTimerWork
  dsimp only
  split_ifs with fresh held
  · rw [modTake_look_self]
  · rfl
  · split
    · rfl
    · rename_i now
      exact absurd now (waits.resolve_left fresh)
    · rw [modTake_look_self]

theorem switchPoint_queue : ((switchPoint l s).takes.look l).queue = (s.takes.look l).queue := by
  have work := takeTimerWork_queue (l := l) (s := applyNudges l (modLane l Lane.planCurrent s)) waits
  unfold switchPoint
  split
  · dsimp only
    rw [modLane_takes]
    split
    · exact work
    · rfl
  · rfl

end

/-! ## CANCEL (R126) -/

/-- A batch leaves a lane's queue and its changes end. -/
def batchEnded (l : LaneId) (k : Nat) (b : Batch) (s : State) : State :=
  endChanges b.changes (modTake l (TakeUnit.cancelled (takeDue s l) k) s)

/-- The owner is told of another port's cancel. -/
def ownerTold (c : CpId) (b : Batch) (s : State) : State :=
  if b.owner = c then s else setNotice b.owner .cancelled s

section
variable {c : CpId} {lane position closure : Byte} {l : LaneId} {b : Batch} {s : State}

theorem effectCancel_badArg (outside : 8 ≤ lane.toNat ∨ 8 ≤ position.toNat) :
    effectCancel c lane position closure s = refuse .badArg s := by
  unfold effectCancel
  split
  · rfl
  · rename_i l named
    have lane : ¬ 8 ≤ lane.toNat := fun above => by cases (asFin_eq_none above).symm.trans named
    exact if_pos (outside.resolve_left lane)

variable (named : laneField lane = some l) (below : position.toNat < 8)
include named below

theorem effectCancel_none (short : (s.takes.look l).queue.length ≤ position.toNat) :
    effectCancel c lane position closure s = refuse .empty s := by
  rw [effectCancel, named]
  dsimp only
  rw [if_neg (Nat.not_le.mpr below), List.getElem?_eq_none short]

/-- There is a batch at the position: its closure number and its owner decide. -/
theorem effectCancel_batch (batch : (s.takes.look l).queue[position.toNat]? = some b) :
    effectCancel c lane position closure s =
      if b.closure ≠ closure then refuse .empty s
      else if b.owner ≠ c ∧ isSenior s c = false then refuse .notOwner s
      else answer [BitVec.ofNat 8 b.changes.length] (ownerTold c b (batchEnded l position.toNat b s)) := by
  rw [effectCancel, named]
  dsimp only
  rw [if_neg (Nat.not_le.mpr below), batch]
  rfl

end

theorem modPort_comm {c k : CpId} (apart : k ≠ c) (f g : CtrlPort → CtrlPort) (s : State) :
    modPort c f (modPort k g s) = modPort k g (modPort c f s) := by
  have ports : (modPort c f (modPort k g s)).ports = (modPort k g (modPort c f s)).ports := by
    refine Table.ext_look fun j => ?_
    rw [modPort_look, modPort_look, modPort_look, modPort_look, modPort_look, modPort_look, if_neg apart,
      if_neg apart.symm]
    split_ifs with caller owner
    · exact absurd (owner.trans caller.symm) apart
    · rfl
    · rfl
    · rfl
  exact congrArg (fun p => { s with ports := p }) ports

section
variable (c : CpId) (l : LaneId) (k : Nat) (b : Batch) (s : State)

/-- The batch ends beside the control ports. -/
theorem batchEnded_frame : batchEnded l k b s = { s with
    takes := s.takes.put l ((s.takes.look l).cancelled (takeDue s l) k)
    tags := (endChanges b.changes s).tags } := by
  have tags : (batchEnded l k b s).tags = (endChanges b.changes s).tags := endChanges_tags b.changes rfl
  obtain ⟨g, frame⟩ := endChanges_frame b.changes (modTake l (TakeUnit.cancelled (takeDue s l) k) s)
  rw [← tags, batchEnded, frame]
  rfl

theorem ownerTold_frame : ∃ p, ownerTold c b s = { s with ports := p } := by
  unfold ownerTold
  split
  · exact ⟨s.ports, rfl⟩
  · exact ⟨_, rfl⟩

theorem ownerTold_caller : (ownerTold c b s).ports.look c = s.ports.look c := by
  unfold ownerTold
  split
  · rfl
  · rename_i other
    exact modPort_look_ne _ s other

theorem ownerTold_other {j : CpId} (other : j ≠ b.owner) : (ownerTold c b s).ports.look j = s.ports.look j := by
  unfold ownerTold
  split
  · rfl
  · exact modPort_look_ne _ s other.symm

theorem ownerTold_owner (other : b.owner ≠ c) :
    (ownerTold c b s).ports.look b.owner = (s.ports.look b.owner).notify .cancelled := by
  rw [ownerTold, if_neg other]
  exact modPort_look_self ..

theorem ownerTold_modPort (f : CtrlPort → CtrlPort) :
    ownerTold c b (modPort c f s) = modPort c f (ownerTold c b s) := by
  unfold ownerTold
  split
  · rfl
  · rename_i other
    exact (modPort_comm other f _ s).symm

theorem batchEnded_modPort (f : CtrlPort → CtrlPort) :
    batchEnded l k b (modPort c f s) = modPort c f (batchEnded l k b s) :=
  endChanges_modPort (modTake l (TakeUnit.cancelled (takeDue s l) k) s) c f b.changes

end

/-- R126: a taken CANCEL of the batch's owner or of the senior port. -/
theorem exec_cancel {c : CpId} {tag lane pos clo : Byte} {l : LaneId} {b : Batch} {s : State} (taken : Takes s c)
    (named : laneField lane = some l) (below : pos.toNat < 8) (batch : (s.takes.look l).queue[pos.toNat]? = some b)
    (number : b.closure = clo) (allowed : b.owner = c ∨ s.senior = some c) :
    exec (.cancel c tag lane pos clo) s = .next (replied s c 0x23 tag .ok [BitVec.ofNat 8 b.changes.length]
      (ownerTold c b (batchEnded l pos.toNat b s))) := by
  have passed : ¬ (b.owner ≠ c ∧ isSenior (served s c 0x23 tag) c = false) := by
    rintro ⟨other, junior⟩
    rw [isSenior_served (allowed.resolve_left other)] at junior
    cases junior
  have moved : ownerTold c b (batchEnded l pos.toNat b (served s c 0x23 tag)) =
      modPort c (servedPort s c 0x23 tag) (ownerTold c b (batchEnded l pos.toNat b s)) := by
    rw [served, batchEnded_modPort, ownerTold_modPort]
  refine congrArg Host.Outcome.next (command_replied taken 0x23 tag _ .ok _ _ ?_ ?_)
  · refine (effectCancel_batch (s := served s c 0x23 tag) named below batch).trans
      ((if_neg (not_not.mpr number)).trans ((if_neg passed).trans ?_))
    rw [moved]
    rfl
  · rw [ownerTold_caller, batchEnded_frame]

/-- The state that a taken CANCEL leaves. -/
def cancelReplied (c : CpId) (tag : Byte) (l : LaneId) (k : Nat) (b : Batch) (s : State) : State :=
  replied s c 0x23 tag .ok [BitVec.ofNat 8 b.changes.length] (ownerTold c b (batchEnded l k b s))

section
variable (c : CpId) (tag : Byte) (l : LaneId) (k : Nat) (b : Batch) (s : State)

theorem cancelReplied_frame : ∃ p, cancelReplied c tag l k b s = { s with
    takes := s.takes.put l ((s.takes.look l).cancelled (takeDue s l) k)
    tags := (endChanges b.changes s).tags
    ports := p } := by
  obtain ⟨p, told⟩ := ownerTold_frame c b (batchEnded l k b s)
  unfold cancelReplied replied
  rw [told, batchEnded_frame]
  exact ⟨_, rfl⟩

theorem cancelReplied_take :
    (cancelReplied c tag l k b s).takes.look l = (s.takes.look l).cancelled (takeDue s l) k := by
  obtain ⟨p, frame⟩ := cancelReplied_frame c tag l k b s
  rw [frame]
  exact Table.look_put_self ..

theorem cancelReplied_caller : (cancelReplied c tag l k b s).ports.look c =
    repliedPort s c ⟨0x23, tag, .ok, false, [BitVec.ofNat 8 b.changes.length]⟩ (s.ports.look c) := by
  unfold cancelReplied replied
  rw [modPort_look_self, ownerTold_caller, batchEnded_frame]

theorem cancelReplied_owner (other : b.owner ≠ c) :
    (cancelReplied c tag l k b s).ports.look b.owner = (s.ports.look b.owner).notify .cancelled := by
  unfold cancelReplied replied
  rw [modPort_look_ne _ _ other.symm, ownerTold_owner _ _ _ other, batchEnded_frame]

theorem cancelReplied_other {j : CpId} (caller : j ≠ c) (owner : j ≠ b.owner) :
    (cancelReplied c tag l k b s).ports.look j = s.ports.look j := by
  unfold cancelReplied replied
  rw [modPort_look_ne _ _ caller.symm, ownerTold_other _ _ _ owner, batchEnded_frame]

/-- R123: where the head was to be applied at the switch point that has come, none is applied at it. -/
theorem cancelReplied_met (due : takeDue s l = true) : takeDue (cancelReplied c tag l 0 b s) l = false ∧
    ((switchPoint l (cancelReplied c tag l 0 b s)).takes.look l).queue = (s.takes.look l).queue.tail := by
  have take := cancelReplied_take c tag l 0 b s
  rw [due] at take
  have waits : WaitsOn ((cancelReplied c tag l 0 b s).takes.look l) := by
    rw [take]
    exact cancelled_waitsOn _
  refine ⟨takeDue_of_waitsOn waits, ?_⟩
  obtain ⟨m, h, f, cancelled⟩ := cancelled_frame (s.takes.look l) true 0
  rw [switchPoint_queue waits, take, cancelled, List.eraseIdx_zero]

end

/-- Settles O34: HOLD and RUN by `next_hold`, CANCEL by `exec_cancel` and what it leaves. -/
theorem holdRunAndCancelActOnBatches : Obligations.HoldRunAndCancelActOnBatches := by
  refine ⟨fun c tag lane pos clo s taken above => ?_, fun c tag lane pos clo l s taken named => ?_,
    fun c tag lane l s taken named => ⟨fun empty => ?_, fun b rest queue =>
      ⟨fun allowed => ?_, fun other junior => ?_⟩⟩,
    fun c tag lane pos clo l b s taken named below batch => ⟨fun number => ?_, fun number other junior => ?_,
      fun number allowed => ?_⟩⟩
  · exact ⟨next_refused taken .badArg (effectHold_badArg above), next_refused taken .badArg (effectHold_badArg above),
      next_refused taken .badArg (effectCancel_badArg (.inl above))⟩
  · exact ⟨fun above => next_refused taken .badArg (effectCancel_badArg (.inr above)),
      fun below short => next_refused taken .empty (effectCancel_none named below short)⟩
  · exact ⟨next_refused taken .empty (effectHold_empty named empty),
      next_refused taken .empty (effectHold_empty named empty)⟩
  · obtain ⟨set, removed⟩ := holdByte_eq (s.takes.look l)
    rw [← set, ← removed]
    exact ⟨next_hold taken named queue allowed, next_hold taken named queue allowed⟩
  · exact ⟨next_refused taken .notOwner (effectHold_notOwner named queue other junior),
      next_refused taken .notOwner (effectHold_notOwner named queue other junior)⟩
  · exact next_refused taken .empty
      ((effectCancel_batch (s := served s c 0x23 tag) named below batch).trans (if_pos number))
  · exact next_refused taken .notOwner ((effectCancel_batch (s := served s c 0x23 tag) named below batch).trans
      ((if_neg (not_not.mpr number)).trans (if_pos ⟨other, ClaimRanges.isSenior_served_false junior _ _⟩)))
  · obtain ⟨p, frame⟩ := cancelReplied_frame c tag l pos.toNat b s
    obtain ⟨m, h, f, cancelled⟩ := cancelled_frame (s.takes.look l) (takeDue s l) pos.toNat
    have take := cancelReplied_take c tag l pos.toNat b s
    have behind (away : pos ≠ 0) : pos.toNat ≠ 0 := fun zero => away (BitVec.eq_of_toNat_eq zero)
    refine ⟨cancelReplied c tag l pos.toNat b s, exec_cancel taken named below batch number allowed, ?_, ?_,
      fun k other => ?_, ?_, ?_, ?_, ?_, ?_, fun away => ?_, ?_, ?_, cancelReplied_caller ..,
      cancelReplied_owner c tag l pos.toNat b s, fun k => cancelReplied_other c tag l pos.toNat b s⟩
    · rw [frame]
    · rw [frame]
    · rw [frame]
      exact Table.look_put_ne _ _ other.symm
    · rw [take, cancelled]
    · rw [take, cancelled]
    · rw [take, cancelled]
    · rw [take, cancelled]
    · rintro rfl
      rw [take]
      exact (congrArg TakeUnit.holdCommand (cancelled_head ..)).trans (reload_holdCommand _)
    · rw [take, cancelled_behind _ _ (behind away)]
      exact ⟨rfl, rfl⟩
    · rintro rfl
      rw [take]
      exact (congrArg TakeUnit.timer (cancelled_head ..)).trans (TakesApplied.reload_timer _)
    · rintro rfl due
      obtain ⟨past, stays⟩ := cancelReplied_met c tag l b s due
      exact ⟨past, _, rfl, stays⟩

end Sys2Proof.Machine.BatchCommands
end
